-- ==== Sys2Proof/Word.lean ====
section
/-! DEFINITION. The word types of the RLNC core: bytes, command and response words, and the field
element, which the spec asks to be a type of its own (R130). -/

namespace Sys2Proof

/-- A byte, 0..255 (00_scope.md R12); also one operand field of a command word (R81). -/
abbrev Byte := BitVec 8

/-- The 32-bit command word `CW` (30_encoding.md R80, R81). -/
abbrev CommandWord := BitVec 32

/-- The 32-bit response word `RW` (30_encoding.md R80, R83). -/
abbrev ResponseWord := BitVec 32

/-- A FieldElement of GF(256) (41_field.md R130): bit `i` of `byte` is the coefficient of `x^i`. It is
a type of its own, so that it is not taken for a count or an index. -/
structure GF where
  byte : Byte
deriving DecidableEq, Repr

/-- The zero element, byte 0x00 (R130). -/
abbrev GF.zero : GF := ⟨0x00#8⟩

/-- The one element, byte 0x01 (R130). -/
abbrev GF.one : GF := ⟨0x01#8⟩

end Sys2Proof
end

