-- ==== Sys2Proof/Syntax.lean ====
section
/-! DEFINITION. The 45 commands of the RLNC core (30_encoding.md R84), one constructor for each row of
`spec/opcode_table.json`. `a`, `b`, `c` are the used operand fields of the command word (R14, R81); a field
that the command's format reserves is no argument (R82). -/

namespace Sys2Proof

/-- A legal command. Every value 0..255 of a used operand is part of the syntax (R85); the ranges that a
command accepts are checked by its meaning. -/
inductive Instr where
  -- System (40_access.md)
  /-- NOP (R102). -/
  | nop
  /-- RDREG (R101): a = register number. -/
  | rdreg (a : Byte)
  -- Access commands (40_access.md)
  /-- FRCNT (R103): a = number of staged fragments. -/
  | frcnt (a : Byte)
  /-- FRLEN (R104): a = fragment f; b = length. -/
  | frlen (a b : Byte)
  /-- FRWR (R105): a = fragment f; b = symbol s; c = value. -/
  | frwr (a b c : Byte)
  /-- FRRD (R106): a = fragment f; b = symbol s. -/
  | frrd (a b : Byte)
  /-- CPRD (R108): a = packet slot j; b = byte i. -/
  | cprd (a b : Byte)
  /-- CPMD (R107): a = packet slot j; b = selector. -/
  | cpmd (a b : Byte)
  /-- DPCNT (R109): a = number of accumulated packets. -/
  | dpcnt (a : Byte)
  /-- DPWR (R110): a = row r; b = byte i; c = value. -/
  | dpwr (a b c : Byte)
  /-- DPRD (R113): a = row r; b = byte i. -/
  | dprd (a b : Byte)
  /-- DRRD (R114): a = row r; b = byte i. -/
  | drrd (a b : Byte)
  /-- DRFL (R111): a = row r. -/
  | drfl (a : Byte)
  /-- DSRD (R112): a = list position j. -/
  | dsrd (a : Byte)
  /-- FIWR (R116): a = index i; b = value. -/
  | fiwr (a b : Byte)
  /-- FIRD (R117): a = index i. -/
  | fird (a : Byte)
  /-- FORD (R115): a = index high byte (idx = a*256 + b); b = index low byte. -/
  | ford (a b : Byte)
  /-- RPRD (R118): a = index i. -/
  | rprd (a : Byte)
  -- FA (41_field.md)
  /-- GFADD (R136): a = field element a; b = field element b. -/
  | gfadd (a b : Byte)
  /-- GFSUB (R137): a = field element a; b = field element b. -/
  | gfsub (a b : Byte)
  /-- GFMUL (R138): a = field element a; b = field element b. -/
  | gfmul (a b : Byte)
  /-- GFDIV (R139): a = dividend; b = divisor. -/
  | gfdiv (a b : Byte)
  /-- GFPOW (R140): a = base; b = exponent. -/
  | gfpow (a b : Byte)
  -- CG (42_lfsr.md)
  /-- LFSEED (R153): a = seed. -/
  | lfseed (a : Byte)
  /-- LFRESET (R154). -/
  | lfreset
  /-- LFGEN (R155). -/
  | lfgen
  -- ENC (43_encoder.md)
  /-- ENCPREP (R169): a = generation size k. -/
  | encprep (a : Byte)
  /-- ENCPRE (R170): a = generation index; b = redundancy. -/
  | encpre (a b : Byte)
  -- DEC (44_decoder.md)
  /-- DECCFG (R186): a = k; b = m. -/
  | deccfg (a b : Byte)
  /-- DECRUN (R191). -/
  | decrun
  /-- DECGEN (R192). -/
  | decgen
  -- SC (45_session.md)
  /-- CFGSET (R215): a = field selector; b = value. -/
  | cfgset (a b : Byte)
  /-- CFGLOAD (R216). -/
  | cfgload
  /-- SSTART (R214). -/
  | sstart
  /-- SFETCH (R217). -/
  | sfetch
  /-- SADV (R219). -/
  | sadv
  /-- SSTOP (R218). -/
  | sstop
  /-- SGENC (R220). -/
  | sgenc
  /-- SLAST (R221). -/
  | slast
  /-- SDONE (R222). -/
  | sdone
  -- FC (46_framecodec.md)
  /-- CRC8 (R242): a = byte count n. -/
  | crc8 (a : Byte)
  /-- COBSENC (R244): a = byte count n. -/
  | cobsenc (a : Byte)
  /-- COBSDEC (R246): a = byte count n. -/
  | cobsdec (a : Byte)
  /-- FRBUILD (R247): a = payload length n. -/
  | frbuild (a : Byte)
  /-- RXBYTE (R250): a = received byte. -/
  | rxbyte (a : Byte)
deriving DecidableEq, Repr

end Sys2Proof
end

