-- ==== Sys2Proof/WellFormed.lean ====
section
/-! DEFINITION. Which command words are legal (30_encoding.md R82, R84, R85): the opcode table as rows with a
mask and a pattern, and the check of a word against it. Every term of `Instr` is legal by its type: a used
operand is a byte and a reserved field is no argument, so what can be ill-formed is a word. -/

namespace Sys2Proof

/-- The four formats of R82, which say what operand fields a command uses. -/
inductive Format where
  | z | a | ab | abc
deriving DecidableEq, Repr

/-- The mask of a format (R82): the opcode and every reserved field. -/
def Format.mask : Format → CommandWord
  | .z => 0xFFFFFFFF#32
  | .a => 0xFF00FFFF#32
  | .ab => 0xFF0000FF#32
  | .abc => 0xFF000000#32

/-- One row of the opcode map (R84). -/
structure OpRow where
  op : Byte
  format : Format
deriving DecidableEq, Repr

/-- `match = op * 2^24` (R82). -/
def OpRow.pattern (r : OpRow) : CommandWord := r.op ++ 0#24

/-- A command word matches a row when `CW & mask = match` (R82). -/
def OpRow.matchesWord (r : OpRow) (cw : CommandWord) : Bool := (cw &&& r.format.mask) == r.pattern

/-- Rows of the system and access commands, NOP to RPRD (R84). -/
def opRowsAccess : List OpRow :=
  [ ⟨0x00#8, .z⟩,
    ⟨0x01#8, .a⟩,
    ⟨0x10#8, .a⟩,
    ⟨0x11#8, .ab⟩,
    ⟨0x12#8, .abc⟩,
    ⟨0x13#8, .ab⟩,
    ⟨0x14#8, .ab⟩,
    ⟨0x15#8, .ab⟩,
    ⟨0x16#8, .a⟩,
    ⟨0x17#8, .abc⟩,
    ⟨0x18#8, .ab⟩,
    ⟨0x19#8, .ab⟩,
    ⟨0x1A#8, .a⟩,
    ⟨0x1B#8, .a⟩,
    ⟨0x1C#8, .ab⟩,
    ⟨0x1D#8, .a⟩,
    ⟨0x1E#8, .ab⟩,
    ⟨0x1F#8, .a⟩ ]

/-- Rows of FA, CG, ENC and DEC, GFADD to DECGEN (R84). -/
def opRowsCoding : List OpRow :=
  [ ⟨0x30#8, .ab⟩,
    ⟨0x31#8, .ab⟩,
    ⟨0x32#8, .ab⟩,
    ⟨0x33#8, .ab⟩,
    ⟨0x34#8, .ab⟩,
    ⟨0x40#8, .a⟩,
    ⟨0x41#8, .z⟩,
    ⟨0x42#8, .z⟩,
    ⟨0x50#8, .a⟩,
    ⟨0x51#8, .ab⟩,
    ⟨0x60#8, .ab⟩,
    ⟨0x61#8, .z⟩,
    ⟨0x62#8, .z⟩ ]

/-- Rows of SC and FC, CFGSET to RXBYTE (R84). -/
def opRowsSession : List OpRow :=
  [ ⟨0x70#8, .ab⟩,
    ⟨0x71#8, .z⟩,
    ⟨0x72#8, .z⟩,
    ⟨0x73#8, .z⟩,
    ⟨0x74#8, .z⟩,
    ⟨0x75#8, .z⟩,
    ⟨0x76#8, .z⟩,
    ⟨0x77#8, .z⟩,
    ⟨0x78#8, .z⟩,
    ⟨0x80#8, .a⟩,
    ⟨0x81#8, .a⟩,
    ⟨0x82#8, .a⟩,
    ⟨0x83#8, .a⟩,
    ⟨0x84#8, .a⟩ ]

/-- The opcode map: 45 rows (R84). -/
def opRows : List OpRow := opRowsAccess ++ opRowsCoding ++ opRowsSession

/-- A command word is legal when it matches a row (R85); every other word is illegal. -/
def legalWord (cw : CommandWord) : Bool := opRows.any fun r => r.matchesWord cw

/-- The row of a command. -/
def Instr.row : Instr → OpRow
  | .nop => ⟨0x00#8, .z⟩
  | .rdreg _ => ⟨0x01#8, .a⟩
  | .frcnt _ => ⟨0x10#8, .a⟩
  | .frlen _ _ => ⟨0x11#8, .ab⟩
  | .frwr _ _ _ => ⟨0x12#8, .abc⟩
  | .frrd _ _ => ⟨0x13#8, .ab⟩
  | .cprd _ _ => ⟨0x14#8, .ab⟩
  | .cpmd _ _ => ⟨0x15#8, .ab⟩
  | .dpcnt _ => ⟨0x16#8, .a⟩
  | .dpwr _ _ _ => ⟨0x17#8, .abc⟩
  | .dprd _ _ => ⟨0x18#8, .ab⟩
  | .drrd _ _ => ⟨0x19#8, .ab⟩
  | .drfl _ => ⟨0x1A#8, .a⟩
  | .dsrd _ => ⟨0x1B#8, .a⟩
  | .fiwr _ _ => ⟨0x1C#8, .ab⟩
  | .fird _ => ⟨0x1D#8, .a⟩
  | .ford _ _ => ⟨0x1E#8, .ab⟩
  | .rprd _ => ⟨0x1F#8, .a⟩
  | .gfadd _ _ => ⟨0x30#8, .ab⟩
  | .gfsub _ _ => ⟨0x31#8, .ab⟩
  | .gfmul _ _ => ⟨0x32#8, .ab⟩
  | .gfdiv _ _ => ⟨0x33#8, .ab⟩
  | .gfpow _ _ => ⟨0x34#8, .ab⟩
  | .lfseed _ => ⟨0x40#8, .a⟩
  | .lfreset => ⟨0x41#8, .z⟩
  | .lfgen => ⟨0x42#8, .z⟩
  | .encprep _ => ⟨0x50#8, .a⟩
  | .encpre _ _ => ⟨0x51#8, .ab⟩
  | .deccfg _ _ => ⟨0x60#8, .ab⟩
  | .decrun => ⟨0x61#8, .z⟩
  | .decgen => ⟨0x62#8, .z⟩
  | .cfgset _ _ => ⟨0x70#8, .ab⟩
  | .cfgload => ⟨0x71#8, .z⟩
  | .sstart => ⟨0x72#8, .z⟩
  | .sfetch => ⟨0x73#8, .z⟩
  | .sadv => ⟨0x74#8, .z⟩
  | .sstop => ⟨0x75#8, .z⟩
  | .sgenc => ⟨0x76#8, .z⟩
  | .slast => ⟨0x77#8, .z⟩
  | .sdone => ⟨0x78#8, .z⟩
  | .crc8 _ => ⟨0x80#8, .a⟩
  | .cobsenc _ => ⟨0x81#8, .a⟩
  | .cobsdec _ => ⟨0x82#8, .a⟩
  | .frbuild _ => ⟨0x83#8, .a⟩
  | .rxbyte _ => ⟨0x84#8, .a⟩

/-- The operand fields `a`, `b`, `c` of a command, a reserved field as 0 (R82). -/
def Instr.fields : Instr → Byte × Byte × Byte
  | .nop => (0#8, 0#8, 0#8)
  | .rdreg a => (a, 0#8, 0#8)
  | .frcnt a => (a, 0#8, 0#8)
  | .frlen a b => (a, b, 0#8)
  | .frwr a b c => (a, b, c)
  | .frrd a b => (a, b, 0#8)
  | .cprd a b => (a, b, 0#8)
  | .cpmd a b => (a, b, 0#8)
  | .dpcnt a => (a, 0#8, 0#8)
  | .dpwr a b c => (a, b, c)
  | .dprd a b => (a, b, 0#8)
  | .drrd a b => (a, b, 0#8)
  | .drfl a => (a, 0#8, 0#8)
  | .dsrd a => (a, 0#8, 0#8)
  | .fiwr a b => (a, b, 0#8)
  | .fird a => (a, 0#8, 0#8)
  | .ford a b => (a, b, 0#8)
  | .rprd a => (a, 0#8, 0#8)
  | .gfadd a b => (a, b, 0#8)
  | .gfsub a b => (a, b, 0#8)
  | .gfmul a b => (a, b, 0#8)
  | .gfdiv a b => (a, b, 0#8)
  | .gfpow a b => (a, b, 0#8)
  | .lfseed a => (a, 0#8, 0#8)
  | .lfreset => (0#8, 0#8, 0#8)
  | .lfgen => (0#8, 0#8, 0#8)
  | .encprep a => (a, 0#8, 0#8)
  | .encpre a b => (a, b, 0#8)
  | .deccfg a b => (a, b, 0#8)
  | .decrun => (0#8, 0#8, 0#8)
  | .decgen => (0#8, 0#8, 0#8)
  | .cfgset a b => (a, b, 0#8)
  | .cfgload => (0#8, 0#8, 0#8)
  | .sstart => (0#8, 0#8, 0#8)
  | .sfetch => (0#8, 0#8, 0#8)
  | .sadv => (0#8, 0#8, 0#8)
  | .sstop => (0#8, 0#8, 0#8)
  | .sgenc => (0#8, 0#8, 0#8)
  | .slast => (0#8, 0#8, 0#8)
  | .sdone => (0#8, 0#8, 0#8)
  | .crc8 a => (a, 0#8, 0#8)
  | .cobsenc a => (a, 0#8, 0#8)
  | .cobsdec a => (a, 0#8, 0#8)
  | .frbuild a => (a, 0#8, 0#8)
  | .rxbyte a => (a, 0#8, 0#8)

/-- Whether a format has the fields `a b c` as its operands: each reserved one is 0 (R82). -/
def Format.admits : Format → Byte × Byte × Byte → Bool
  | .z, (x, y, w) => x == 0#8 && y == 0#8 && w == 0#8
  | .a, (_, y, w) => y == 0#8 && w == 0#8
  | .ab, (_, _, w) => w == 0#8
  | .abc, _ => true

/-- A command is well-formed when its row is in the opcode map and its fields suit its format. By the type of
`Instr` every command is (`Sys2Proof.Laws.instr_wellFormed`). -/
def Instr.wellFormed (i : Instr) : Bool := opRows.contains i.row && i.row.format.admits i.fields

end Sys2Proof
end

