-- ==== Sys2Proof/Decode.lean ====
section
/-! DEFINITION. Decoding and encoding of command words (30_encoding.md R80 to R88). Decoding is total: a word is
a command, or it is refused by name. -/

namespace Sys2Proof

/-- Why a word is no command (R85). The unit answers both with IllegalCommand. -/
inductive DecodeError where
  /-- The opcode is none of the 45 of R84. -/
  | unassignedOpcode (op : Byte)
  /-- The opcode is assigned and a field its format reserves is not zero. -/
  | reservedField (op : Byte)
deriving DecidableEq, Repr

/-- `CW[31:24]`, the opcode (R81). -/
def fieldOp (cw : CommandWord) : Byte := cw.extractLsb' 24 8

/-- `CW[23:16]`, the first operand (R81). -/
def fieldA (cw : CommandWord) : Byte := cw.extractLsb' 16 8

/-- `CW[15:8]`, the second operand (R81). -/
def fieldB (cw : CommandWord) : Byte := cw.extractLsb' 8 8

/-- `CW[7:0]`, the third operand (R81). -/
def fieldC (cw : CommandWord) : Byte := cw.extractLsb' 0 8

/-- The command `i` read from a word, unless a field that the format reserves is not zero (R82, R85). -/
def readAs (f : Format) (cw : CommandWord) (i : Instr) : Except DecodeError Instr :=
  if f.admits (fieldA cw, fieldB cw, fieldC cw) then .ok i else .error (.reservedField (fieldOp cw))

/-- Decode a command word (R84, R85). -/
def decode (cw : CommandWord) : Except DecodeError Instr :=
  match (fieldOp cw).toNat with
  | 0x00 => readAs .z cw .nop
  | 0x01 => readAs .a cw (.rdreg (fieldA cw))
  | 0x10 => readAs .a cw (.frcnt (fieldA cw))
  | 0x11 => readAs .ab cw (.frlen (fieldA cw) (fieldB cw))
  | 0x12 => readAs .abc cw (.frwr (fieldA cw) (fieldB cw) (fieldC cw))
  | 0x13 => readAs .ab cw (.frrd (fieldA cw) (fieldB cw))
  | 0x14 => readAs .ab cw (.cprd (fieldA cw) (fieldB cw))
  | 0x15 => readAs .ab cw (.cpmd (fieldA cw) (fieldB cw))
  | 0x16 => readAs .a cw (.dpcnt (fieldA cw))
  | 0x17 => readAs .abc cw (.dpwr (fieldA cw) (fieldB cw) (fieldC cw))
  | 0x18 => readAs .ab cw (.dprd (fieldA cw) (fieldB cw))
  | 0x19 => readAs .ab cw (.drrd (fieldA cw) (fieldB cw))
  | 0x1A => readAs .a cw (.drfl (fieldA cw))
  | 0x1B => readAs .a cw (.dsrd (fieldA cw))
  | 0x1C => readAs .ab cw (.fiwr (fieldA cw) (fieldB cw))
  | 0x1D => readAs .a cw (.fird (fieldA cw))
  | 0x1E => readAs .ab cw (.ford (fieldA cw) (fieldB cw))
  | 0x1F => readAs .a cw (.rprd (fieldA cw))
  | 0x30 => readAs .ab cw (.gfadd (fieldA cw) (fieldB cw))
  | 0x31 => readAs .ab cw (.gfsub (fieldA cw) (fieldB cw))
  | 0x32 => readAs .ab cw (.gfmul (fieldA cw) (fieldB cw))
  | 0x33 => readAs .ab cw (.gfdiv (fieldA cw) (fieldB cw))
  | 0x34 => readAs .ab cw (.gfpow (fieldA cw) (fieldB cw))
  | 0x40 => readAs .a cw (.lfseed (fieldA cw))
  | 0x41 => readAs .z cw .lfreset
  | 0x42 => readAs .z cw .lfgen
  | 0x50 => readAs .a cw (.encprep (fieldA cw))
  | 0x51 => readAs .ab cw (.encpre (fieldA cw) (fieldB cw))
  | 0x60 => readAs .ab cw (.deccfg (fieldA cw) (fieldB cw))
  | 0x61 => readAs .z cw .decrun
  | 0x62 => readAs .z cw .decgen
  | 0x70 => readAs .ab cw (.cfgset (fieldA cw) (fieldB cw))
  | 0x71 => readAs .z cw .cfgload
  | 0x72 => readAs .z cw .sstart
  | 0x73 => readAs .z cw .sfetch
  | 0x74 => readAs .z cw .sadv
  | 0x75 => readAs .z cw .sstop
  | 0x76 => readAs .z cw .sgenc
  | 0x77 => readAs .z cw .slast
  | 0x78 => readAs .z cw .sdone
  | 0x80 => readAs .a cw (.crc8 (fieldA cw))
  | 0x81 => readAs .a cw (.cobsenc (fieldA cw))
  | 0x82 => readAs .a cw (.cobsdec (fieldA cw))
  | 0x83 => readAs .a cw (.frbuild (fieldA cw))
  | 0x84 => readAs .a cw (.rxbyte (fieldA cw))
  | _ => .error (.unassignedOpcode (fieldOp cw))

/-- The command word of a command, `op ‖ a ‖ b ‖ c` (R81). -/
def encode (i : Instr) : CommandWord := i.row.op ++ i.fields.1 ++ i.fields.2.1 ++ i.fields.2.2

/-- The instruction that the decoder reads from an instruction whose bits are `w`, numbered as
`spec/opcode_table.json` numbers them: there is one 32-bit word (R80), so bits above `nbits`, and above 31, are not
part of it. -/
def decodeTableWord (nbits w : Nat) : Option Instr :=
  match decode (BitVec.ofNat 32 (w % 2 ^ nbits)) with
  | .ok i => some i
  | .error _ => none

end Sys2Proof
end

