-- ==== Sys2Proof/Config.lean ====
section
/-! DEFINITION. What an instance of the unit fixes (the capacities of R7 and the constants of R6), the
names of its eight memories (R39), and the free values: opaque constants of which nothing can be proved. -/

namespace Sys2Proof

/-- The eight byte memories, each an address space of its own (10_state.md R39). -/
inductive Space where
  | src | cpk | dpkt | dres | fin | fout | rxbuf | rxpay
deriving DecidableEq, Repr

/-- The capacities LC does not bound (00_scope.md R7), fixed for the life of a unit instance. -/
structure Params where
  /-- `F_MAX`: fragments the fragment memory SRC holds. -/
  fMax : Nat
  /-- `M_MAX`: symbols (bytes) per fragment. -/
  mMax : Nat
  /-- `C_MAX`: coded packets the packet store CPK holds. -/
  cMax : Nat
  /-- `P_MAX`: rows of the decoder memories DPKT and DRES. -/
  pMax : Nat
deriving DecidableEq, Repr

/-- The constraints of R7 on the parameters. -/
abbrev Params.Ok (p : Params) : Prop :=
  (1 ≤ p.fMax ∧ p.fMax ≤ 255) ∧ (1 ≤ p.mMax ∧ p.mMax ≤ 239) ∧
    (1 ≤ p.cMax ∧ p.cMax ≤ 255) ∧ (1 ≤ p.pMax ∧ p.pMax ≤ 255)

/-- The reference configuration (R7, last column). DESIGN CHOICE, unsafe for a statement that rests on
the values (log 3): `State.reset` is an instance with these capacities. -/
def Params.reference : Params := { fMax := 64, mMax := 64, cMax := 32, pMax := 32 }

/-- `W_MAX = 16 + M_MAX`: bytes in one stored coded packet (R7). -/
abbrev Params.wMax (p : Params) : Nat := 16 + p.mMax

namespace Config

/-- `K_MAX`, the maximum generation size (R6). -/
abbrev kMax : Nat := 16

/-- The LFSR cycle limit `2^8 - 1` (R6). -/
abbrev cycleLimit : Nat := 255

/-- The COBS input limit in bytes (R6, R243). -/
abbrev cobsInMax : Nat := 254

/-- "The maximum frame size" of the COBS encoder (R243, D38). -/
abbrev cobsOutMax : Nat := 255

/-- The longest wire frame in bytes, the size of FOUT and RXBUF (R39, R240). -/
abbrev frameMax : Nat := 258

/-- The longest payload of a frame, the size of RXPAY (R39, R240). -/
abbrev payloadMax : Nat := 252

/-- The size of the codec's input buffer FIN (R39). -/
abbrev finSize : Nat := 255

/-- FREE VALUE (log 4; U1, R72, R292): the byte that the given space holds at the given key after the
reset number `epoch`, until a command writes it. It has no body: a statement about it holds for every
content. -/
opaque powerOnByte (epoch : Nat) (sp : Space) (key : Nat) : Byte

/-- FREE VALUE (log 8; U2, R25): the entry `LOG[0]`, which the building loop never writes and which no
rule reads. -/
opaque logOfZero : Nat

end Config

end Sys2Proof
end

