-- ==== Sys2Proof/Machine/State.lean ====
section
/-! DEFINITION. The architectural state of the RLNC core (10_state.md) as plain data, grouped by unit, its
state after reset (70_reset_and_hazards.md R290 to R292), and the reasons a step can stop (none is ever given). -/

namespace Sys2Proof.Machine

/-- A byte memory: the bytes that commands have written since the last reset, as (key, byte) pairs in one
canonical form, keys strictly rising (`Memory.wf`). A key that is not listed is a byte nothing has written
(R72). -/
abbrev Memory := List Host.Cell

/-- The eight memories of R39, one address space each. -/
structure Memories where
  src : Memory
  cpk : Memory
  dpkt : Memory
  dres : Memory
  fin : Memory
  fout : Memory
  rxbuf : Memory
  rxpay : Memory
deriving DecidableEq, Repr

/-- CG, the coefficient generator (R29). -/
structure CgRegs where
  /-- LFSR_SEED, 0x10. -/
  seed : BitVec 8
  /-- LFSR_STATE, 0x11. -/
  state : BitVec 8
  /-- LFSR_COUNT, 0x12. -/
  count : BitVec 8
deriving DecidableEq, Repr

/-- Fragment staging, encoder, and the bookkeeping of the coded-packet store (R30, R31, R32). -/
structure EncRegs where
  /-- NFRAG, 0x20. -/
  nfrag : BitVec 8
  /-- SRCLEN[f], f in 0..F_MAX-1; no register number. -/
  srclen : List (BitVec 8)
  /-- ENC_VALID, 0x21. -/
  valid : Bool
  /-- ENC_K, 0x22. -/
  k : BitVec 5
  /-- ENC_M, 0x23. -/
  m : BitVec 8
  /-- ENC_N, 0x24. -/
  n : BitVec 8
  /-- ENC_NGEN, 0x25. -/
  ngen : BitVec 8
  /-- ENC_GEN, 0x26. -/
  gen : BitVec 8
  /-- CPKN, 0x27. -/
  cpkn : BitVec 8
  /-- CPKG, 0x28. -/
  cpkg : BitVec 5
  /-- CPKGEN, 0x29. -/
  cpkgen : BitVec 8
  /-- CPKM, 0x2A. -/
  cpkm : BitVec 8
  /-- CPKPRE[j], j in 0..C_MAX-1; no register number. -/
  cpkpre : List (BitVec 8)
  /-- CPKPOST[j], j in 0..C_MAX-1; no register number. -/
  cpkpost : List (BitVec 8)
deriving DecidableEq, Repr

/-- Decoder configuration, accumulated set and result (R33, R34). -/
structure DecRegs where
  /-- DEC_K, 0x30. -/
  k : BitVec 5
  /-- DEC_M, 0x31. -/
  m : BitVec 8
  /-- DROWS, 0x32. -/
  rows : BitVec 8
  /-- DRES_ROWS, 0x33. -/
  resRows : BitVec 8
  /-- DRANK, 0x34. -/
  rank : BitVec 5
  /-- DNSUCC, 0x35. -/
  nsucc : BitVec 8
  /-- DNRED, 0x36. -/
  nred : BitVec 8
  /-- DNSEL, 0x37. -/
  nsel : BitVec 8
  /-- DSUCC[r], r in 0..P_MAX-1; no register number. -/
  succ : List Bool
  /-- DRED[r], r in 0..P_MAX-1; no register number. -/
  red : List Bool
  /-- DPIV[r], r in 0..P_MAX-1; no register number. -/
  piv : List (BitVec 4)
  /-- DSEL[j], j in 0..P_MAX-1; no register number. -/
  sel : List (BitVec 8)
deriving DecidableEq, Repr

/-- Session configuration (R35). -/
structure CfgRegs where
  /-- CFG_K, 0x40. -/
  k : BitVec 8
  /-- CFG_RED, 0x41. -/
  red : BitVec 8
  /-- CFG_SEED, 0x42. -/
  seed : BitVec 8
  /-- CFG_LOADED, 0x43. -/
  loaded : Bool
deriving DecidableEq, Repr

/-- The session slot and the metadata of the last fetched packet (R36, R37, R210). -/
structure SessRegs where
  /-- SESS_ACTIVE, 0x48. -/
  active : Bool
  /-- S_K, 0x49. -/
  k : BitVec 5
  /-- S_RED, 0x4A. -/
  red : BitVec 8
  /-- S_SEED, 0x4B. -/
  seed : BitVec 8
  /-- CUR_GEN, 0x4C. -/
  curGen : BitVec 8
  /-- CUR_FRAG, 0x4D. -/
  curFrag : BitVec 8
  /-- GEN_COUNT, 0x4E. -/
  genCount : BitVec 8
  /-- TOTAL_FRAGS, 0x4F. -/
  totalFrags : BitVec 8
  /-- S_FSIZE, 0x50. -/
  fsize : BitVec 8
  /-- META_SEQ, 0x51. -/
  metaSeq : BitVec 8
  /-- META_GEN, 0x52. -/
  metaGen : BitVec 8
  /-- META_PRE, 0x53. -/
  metaPre : BitVec 8
  /-- META_POST, 0x54. -/
  metaPost : BitVec 8
deriving DecidableEq, Repr

/-- Frame codec (R38). -/
structure FcRegs where
  /-- FOUTN, 0x60. -/
  foutn : BitVec 9
  /-- RXSYNC, 0x61. -/
  rxsync : Bool
  /-- RXN, 0x62. -/
  rxn : BitVec 9
  /-- RXPAYN, 0x63. -/
  rxpayn : BitVec 8
  /-- FR_CAUSE, 0x64. -/
  frCause : BitVec 3
deriving DecidableEq, Repr

/-- What the host can do to the unit (00_scope.md R11): present a command word, or assert reset. -/
inductive HostEvent where
  /-- The command channel transfers this word (R92). -/
  | command (cw : CommandWord)
  /-- The reset input is asserted (R290). -/
  | reset
deriving DecidableEq, Repr

/-- The machine. `params`, `epoch` and `inbox` are the model's own fields (logs 3, 9, 1); everything else is
state that the spec names. -/
structure State where
  /-- The capacities of this instance (R7); no step changes them. -/
  params : Params
  /-- How many resets this run has seen: what the free value of an unwritten byte is applied to. -/
  epoch : Nat
  /-- Host events that the unit has not taken yet, the first to come first (R11, R92). -/
  inbox : List HostEvent
  /-- The response word of the last completed command; none when no command has completed since reset. -/
  response : Option ResponseWord
  /-- ERRLOG, 0x03 (R28). -/
  errlog : BitVec 6
  cg : CgRegs
  enc : EncRegs
  dec : DecRegs
  cfg : CfgRegs
  sess : SessRegs
  fc : FcRegs
  mem : Memories
deriving DecidableEq, Repr

/-- The error kinds of R270, each a status other than OK. -/
inductive ErrorKind where
  /-- Status 1: "configuration or sequencing misuse". -/
  | validationError
  /-- Status 2: "coefficient-generator cycle limit reached". -/
  | cycleExhausted
  /-- Status 3: "field division by the zero element". -/
  | divisionByZero
  /-- Status 4: "malformed COBS input or inconsistent declared/actual length". -/
  | framingError
  /-- Status 5: unassigned opcode or non-zero reserved field. -/
  | illegalCommand
deriving DecidableEq, Repr

/-- Reasons for a step to stop the machine. There is none: "There is no trap, no halt and no stuck state"
(00_scope.md R10), so the type has no constructor and nobody can raise one (log 14). -/
inductive Fault where
deriving DecidableEq, Repr

/-- Reasons for the model to refuse an instruction. -/
inductive Refusal where
  /-- Raised by the dispatch for an instruction that has no meaning yet; safe. No arm answers it. -/
  | notModelled (mnemonic : String)
deriving DecidableEq, Repr

/-- Every session register at 0: the reset value (R291) and what SSTOP leaves (R210, R218). -/
def SessRegs.absent : SessRegs :=
  { active := false, k := 0#5, red := 0#8, seed := 0#8, curGen := 0#8, curFrag := 0#8, genCount := 0#8,
    totalFrags := 0#8, fsize := 0#8, metaSeq := 0#8, metaGen := 0#8, metaPre := 0#8, metaPost := 0#8 }

/-- The reset state of an instance with the given capacities (R291, R292), after the reset number `epoch`.
Every numbered register is 0 and no byte is written. CPKPRE, CPKPOST, DSUCC, DRED, DPIV and DSEL are
unspecified by R291 and unobservable; DESIGN CHOICE, unsafe (log 7): they are 0 here. -/
def State.resetOf (p : Params) (epoch : Nat) : State :=
  { params := p
    epoch := epoch
    inbox := []
    response := none
    errlog := 0#6
    cg := { seed := 0#8, state := 0#8, count := 0#8 }
    enc :=
      { nfrag := 0#8, srclen := List.replicate p.fMax 0#8, valid := false, k := 0#5, m := 0#8, n := 0#8,
        ngen := 0#8, gen := 0#8, cpkn := 0#8, cpkg := 0#5, cpkgen := 0#8, cpkm := 0#8,
        cpkpre := List.replicate p.cMax 0#8, cpkpost := List.replicate p.cMax 0#8 }
    dec :=
      { k := 0#5, m := 0#8, rows := 0#8, resRows := 0#8, rank := 0#5, nsucc := 0#8, nred := 0#8, nsel := 0#8,
        succ := List.replicate p.pMax false, red := List.replicate p.pMax false,
        piv := List.replicate p.pMax 0#4, sel := List.replicate p.pMax 0#8 }
    cfg := { k := 0#8, red := 0#8, seed := 0#8, loaded := false }
    sess := SessRegs.absent
    fc := { foutn := 0#9, rxsync := false, rxn := 0#9, rxpayn := 0#8, frCause := 0#3 }
    mem := { src := [], cpk := [], dpkt := [], dres := [], fin := [], fout := [], rxbuf := [], rxpay := [] } }

/-- The machine right after reset: the reset state of the reference configuration (R7, R291; log 3). -/
def State.reset : State := State.resetOf Params.reference 0

/-- Read one of the eight memories (R39). -/
def Memories.get (m : Memories) : Space → Memory
  | .src => m.src
  | .cpk => m.cpk
  | .dpkt => m.dpkt
  | .dres => m.dres
  | .fin => m.fin
  | .fout => m.fout
  | .rxbuf => m.rxbuf
  | .rxpay => m.rxpay

/-- Replace one of the eight memories (R39). -/
def Memories.set (m : Memories) (sp : Space) (x : Memory) : Memories :=
  match sp with
  | .src => { m with src := x }
  | .cpk => { m with cpk := x }
  | .dpkt => { m with dpkt := x }
  | .dres => { m with dres := x }
  | .fin => { m with fin := x }
  | .fout => { m with fout := x }
  | .rxbuf => { m with rxbuf := x }
  | .rxpay => { m with rxpay := x }

/-! One named update per part of the state: a meaning writes through these. Their lemmas stand in
`Sys2Proof/Laws/State.lean`. -/

def State.setInbox (s : State) (x : List HostEvent) : State := { s with inbox := x }
def State.setResponse (s : State) (x : Option ResponseWord) : State := { s with response := x }
def State.setErrlog (s : State) (x : BitVec 6) : State := { s with errlog := x }
def State.setCg (s : State) (x : CgRegs) : State := { s with cg := x }
def State.setEnc (s : State) (x : EncRegs) : State := { s with enc := x }
def State.setDec (s : State) (x : DecRegs) : State := { s with dec := x }
def State.setCfg (s : State) (x : CfgRegs) : State := { s with cfg := x }
def State.setSess (s : State) (x : SessRegs) : State := { s with sess := x }
def State.setFc (s : State) (x : FcRegs) : State := { s with fc := x }
def State.setMem (s : State) (x : Memories) : State := { s with mem := x }

end Sys2Proof.Machine
end

