-- ==== Sys2Proof/Machine/Flags.lean ====
section
/-! DEFINITION. One-bit results and codes: status codes and ERRLOG bits (60_exceptions.md R270), the response
word (30_encoding.md R83), and the session predicates, which are computed and not stored (10_state.md R22,
45_session.md R212, R213). -/

namespace Sys2Proof.Machine

/-- The status code of an error (R270); OK is 0. -/
def ErrorKind.code : ErrorKind → Nat
  | .validationError => 1
  | .cycleExhausted => 2
  | .divisionByZero => 3
  | .framingError => 4
  | .illegalCommand => 5

/-- The ERRLOG bit of an error: status code `s` sets bit `s` (R28, R270). -/
def ErrorKind.errlogBit (e : ErrorKind) : BitVec 6 := 1#6 <<< e.code

/-- The response word `st ‖ 0 ‖ val[15:0]` (R83). -/
def responseWord (st val : Nat) : ResponseWord := BitVec.ofNat 8 st ++ 0#8 ++ BitVec.ofNat 16 val

/-- A one-bit register or predicate as a number (R22, R220 to R222). -/
def bitVal (b : Bool) : Nat := if b then 1 else 0

/-- `Remaining()` (R212): fragments of no generation before the current one, floored at 0. -/
def SessRegs.remaining (x : SessRegs) : Nat := x.totalFrags.toNat - x.curGen.toNat * x.k.toNat

/-- `Budget()` (R212). -/
def SessRegs.budget (x : SessRegs) : Nat := min (x.k.toNat + x.red.toNat) (x.remaining + x.red.toNat)

/-- `GenComplete()` (R212). -/
def SessRegs.genComplete (x : SessRegs) : Bool := x.budget ≤ x.curFrag.toNat

/-- `LastGen()` (R213). -/
def SessRegs.lastGen (x : SessRegs) : Bool := x.genCount.toNat ≤ x.curGen.toNat + 1

/-- `Done()` (R213). -/
def SessRegs.done (x : SessRegs) : Bool := x.genComplete && x.lastGen

end Sys2Proof.Machine
end

