-- ==== Sys2Proof/Machine/Operands.lean ====
section
/-! DEFINITION. Operand forms (30_encoding.md R88): register numbers, the key of a byte in a two-dimensional
memory, the joined index of FORD, the selectors of CFGSET and CPMD. -/

namespace Sys2Proof.Machine

/-- The 48 numbered registers (10_state.md R27 to R38). -/
inductive Reg where
  | fieldPoly | fieldDegree | fieldGen | errlog
  | lfsrSeed | lfsrState | lfsrCount
  | nfrag | encValid | encK | encM | encN | encNgen | encGen | cpkn | cpkg | cpkgen | cpkm
  | decK | decM | drows | dresRows | drank | dnsucc | dnred | dnsel
  | cfgK | cfgRed | cfgSeed | cfgLoaded
  | sessActive | sK | sRed | sSeed | curGen | curFrag | genCount | totalFrags | sFsize
  | metaSeq | metaGen | metaPre | metaPost
  | foutn | rxsync | rxn | rxpayn | frCause
deriving DecidableEq, Repr

/-- The register with the given number, if the number is assigned (R101). -/
def Reg.ofNumber (a : Byte) : Option Reg :=
  match a.toNat with
  | 0x00 => some .fieldPoly
  | 0x01 => some .fieldDegree
  | 0x02 => some .fieldGen
  | 0x03 => some .errlog
  | 0x10 => some .lfsrSeed
  | 0x11 => some .lfsrState
  | 0x12 => some .lfsrCount
  | 0x20 => some .nfrag
  | 0x21 => some .encValid
  | 0x22 => some .encK
  | 0x23 => some .encM
  | 0x24 => some .encN
  | 0x25 => some .encNgen
  | 0x26 => some .encGen
  | 0x27 => some .cpkn
  | 0x28 => some .cpkg
  | 0x29 => some .cpkgen
  | 0x2A => some .cpkm
  | 0x30 => some .decK
  | 0x31 => some .decM
  | 0x32 => some .drows
  | 0x33 => some .dresRows
  | 0x34 => some .drank
  | 0x35 => some .dnsucc
  | 0x36 => some .dnred
  | 0x37 => some .dnsel
  | 0x40 => some .cfgK
  | 0x41 => some .cfgRed
  | 0x42 => some .cfgSeed
  | 0x43 => some .cfgLoaded
  | 0x48 => some .sessActive
  | 0x49 => some .sK
  | 0x4A => some .sRed
  | 0x4B => some .sSeed
  | 0x4C => some .curGen
  | 0x4D => some .curFrag
  | 0x4E => some .genCount
  | 0x4F => some .totalFrags
  | 0x50 => some .sFsize
  | 0x51 => some .metaSeq
  | 0x52 => some .metaGen
  | 0x53 => some .metaPre
  | 0x54 => some .metaPost
  | 0x60 => some .foutn
  | 0x61 => some .rxsync
  | 0x62 => some .rxn
  | 0x63 => some .rxpayn
  | 0x64 => some .frCause
  | _ => none

/-- The value of a numbered register as a number (R23, R27 to R38). -/
def State.regValue (s : State) : Reg → Nat
  | .fieldPoly => 0x11D
  | .fieldDegree => 8
  | .fieldGen => 0x02
  | .errlog => s.errlog.toNat
  | .lfsrSeed => s.cg.seed.toNat
  | .lfsrState => s.cg.state.toNat
  | .lfsrCount => s.cg.count.toNat
  | .nfrag => s.enc.nfrag.toNat
  | .encValid => bitVal s.enc.valid
  | .encK => s.enc.k.toNat
  | .encM => s.enc.m.toNat
  | .encN => s.enc.n.toNat
  | .encNgen => s.enc.ngen.toNat
  | .encGen => s.enc.gen.toNat
  | .cpkn => s.enc.cpkn.toNat
  | .cpkg => s.enc.cpkg.toNat
  | .cpkgen => s.enc.cpkgen.toNat
  | .cpkm => s.enc.cpkm.toNat
  | .decK => s.dec.k.toNat
  | .decM => s.dec.m.toNat
  | .drows => s.dec.rows.toNat
  | .dresRows => s.dec.resRows.toNat
  | .drank => s.dec.rank.toNat
  | .dnsucc => s.dec.nsucc.toNat
  | .dnred => s.dec.nred.toNat
  | .dnsel => s.dec.nsel.toNat
  | .cfgK => s.cfg.k.toNat
  | .cfgRed => s.cfg.red.toNat
  | .cfgSeed => s.cfg.seed.toNat
  | .cfgLoaded => bitVal s.cfg.loaded
  | .sessActive => bitVal s.sess.active
  | .sK => s.sess.k.toNat
  | .sRed => s.sess.red.toNat
  | .sSeed => s.sess.seed.toNat
  | .curGen => s.sess.curGen.toNat
  | .curFrag => s.sess.curFrag.toNat
  | .genCount => s.sess.genCount.toNat
  | .totalFrags => s.sess.totalFrags.toNat
  | .sFsize => s.sess.fsize.toNat
  | .metaSeq => s.sess.metaSeq.toNat
  | .metaGen => s.sess.metaGen.toNat
  | .metaPre => s.sess.metaPre.toNat
  | .metaPost => s.sess.metaPost.toNat
  | .foutn => s.fc.foutn.toNat
  | .rxsync => bitVal s.fc.rxsync
  | .rxn => s.fc.rxn.toNat
  | .rxpayn => s.fc.rxpayn.toNat
  | .frCause => s.fc.frCause.toNat

/-- The key of byte `j` of row `i` in a two-dimensional memory. DESIGN CHOICE, safe (log 6): row and byte
index, each below 256 in every shape of R39, side by side in one number. -/
def cellKey (i j : Nat) : Nat := i * 256 + j

/-- FORD's 16-bit index `a ‖ b` (R88, R115). -/
def joinedIndex (a b : Byte) : Nat := a.toNat * 256 + b.toNat

/-- CFGSET's field selector (R215): 0 generation size, 1 redundancy count, 2 LFSR seed; none above 2. -/
def CfgRegs.setField (x : CfgRegs) (sel v : Byte) : Option CfgRegs :=
  match sel.toNat with
  | 0 => some { x with k := v }
  | 1 => some { x with red := v }
  | 2 => some { x with seed := v }
  | _ => none

/-- CPMD's selector (R107): 0 the generator state before packet `j`, 1 the state after; none above 1. -/
def EncRegs.packetMeta (x : EncRegs) (j : Nat) (sel : Byte) : Option Byte :=
  match sel.toNat with
  | 0 => some (x.cpkpre.getD j 0#8)
  | 1 => some (x.cpkpost.getD j 0#8)
  | _ => none

/-- Whether a key lies inside the physical shape of a memory (R39). -/
def Space.inShape (p : Params) (sp : Space) (key : Nat) : Bool :=
  match sp with
  | .src => key / 256 < p.fMax && key % 256 < p.mMax
  | .cpk => key / 256 < p.cMax && key % 256 < p.wMax
  | .dpkt => key / 256 < p.pMax && key % 256 < p.wMax
  | .dres => key / 256 < p.pMax && key % 256 < p.wMax
  | .fin => key < Config.finSize
  | .fout => key < Config.frameMax
  | .rxbuf => key < Config.frameMax
  | .rxpay => key < Config.payloadMax

end Sys2Proof.Machine
end

