-- ==== Sys2Proof/Machine/Ops.lean ====
section
/-! DEFINITION. The shared operations: one byte of a memory (20_memory.md R60), runs of bytes in index order (R61),
register arrays, completing a command (30_encoding.md R83), the error entry (60_exceptions.md R272, R276), an
illegal word (R85), and the reset input (70_reset_and_hazards.md R290). -/

namespace Sys2Proof.Machine

/-- Entry `i` of a constant table (10_state.md R24 to R26) printed in rows of sixteen bytes: row `i / 16`, the first
byte of a row leftmost. -/
def romByte (rows : List Nat) (i : Nat) : Byte := BitVec.ofNat 8 (rows.getD (i / 16) 0 >>> (8 * (15 - i % 16)))

/-- The byte listed under a key, none where nothing has been written. -/
def Memory.byteAt : Memory → Nat → Option Byte
  | [], _ => none
  | (k, v) :: m, a => if k = a then some v else Memory.byteAt m a

/-- Write one byte, keeping the keys strictly rising. -/
def Memory.store : Memory → Nat → Byte → Memory
  | [], a, v => [(a, v)]
  | (k, w) :: m, a, v =>
    if a < k then (a, v) :: (k, w) :: m
    else if a = k then (a, v) :: m
    else (k, w) :: Memory.store m a v

/-- Write a run of bytes at consecutive keys, in index order. -/
def Memory.storeRun : Memory → Nat → List Byte → Memory
  | m, _, [] => m
  | m, a, b :: bs => Memory.storeRun (Memory.store m a b) (a + 1) bs

/-- The canonical form: keys strictly rising (so no key twice). A listed byte is a written byte, which an
unlisted one is not, so no entry repeats what an unlisted key stands for (log 5). -/
def Memory.wf : Memory → Bool
  | [] => true
  | [_] => true
  | (k, _) :: (k', v') :: m => decide (k < k') && Memory.wf ((k', v') :: m)

/-- `MemRead` (R60): the byte of a memory at a key. A byte that nothing has written since reset reads as the
free value of its epoch, space and key (R72; log 4), the same on every read. -/
def State.readByte (s : State) (sp : Space) (key : Nat) : Byte :=
  (Memory.byteAt (s.mem.get sp) key).getD (Config.powerOnByte s.epoch sp key)

/-- `n` bytes of a memory from a key on, in index order. -/
def State.readRun (s : State) (sp : Space) (key n : Nat) : List Byte :=
  (List.range n).map fun i => s.readByte sp (key + i)

/-- `MemWrite` (R60). -/
def State.writeByte (s : State) (sp : Space) (key : Nat) (v : Byte) : State :=
  s.setMem (s.mem.set sp (Memory.store (s.mem.get sp) key v))

/-- Write a run of bytes at consecutive keys, in index order. -/
def State.writeRun (s : State) (sp : Space) (key : Nat) (bs : List Byte) : State :=
  s.setMem (s.mem.set sp (Memory.storeRun (s.mem.get sp) key bs))

/-- Write the first entries of a register array and keep the others (R190: rows 0..n-1 are written; U3: the rest
keeps its values). The array keeps its length. -/
def setPrefix {α : Type} : List α → List α → List α
  | [], _ => []
  | o :: os, [] => o :: os
  | _ :: os, n :: ns => n :: setPrefix os ns

/-- How a command's pseudocode ends (00_scope.md R13): `return v`, or `raise <Status>` with the state it leaves,
which is the old state but for COBSDEC and RXBYTE (R272). -/
inductive Reply where
  | value (s : State) (v : Nat)
  | raise (s : State) (e : ErrorKind)
deriving DecidableEq, Repr

/-- `return v`: status OK and the value (R13, R83). ERRLOG is not touched (R270: bit 0 is always 0). -/
def State.answer (s : State) (v : Nat) : State := s.setResponse (some (responseWord 0 v))

/-- TAKING AN ERROR, the unit's whole "trap entry sequence" (R272, R276): set the ERRLOG bit of the status and
answer with the status and value 0. There is no return from it (R277): the next command runs as always. -/
def State.takeError (s : State) (e : ErrorKind) : State :=
  (s.setErrlog (s.errlog ||| e.errlogBit)).setResponse (some (responseWord e.code 0))

/-- The state after a command that ended with the given reply. -/
def Reply.settle : Reply → State
  | .value s v => s.answer v
  | .raise s e => s.takeError e

/-- A command always completes, with or without an error (R10, R21). -/
def Reply.complete (r : Reply) : Host.Outcome State Fault Refusal := .next r.settle

/-- What an illegal command word does (R85): it sets ERRLOG bit 5 and answers IllegalCommand. -/
def State.rejectWord (s : State) : State := s.takeError .illegalCommand

/-- Asserting reset (R290): the reset state of this instance follows, with unspecified memory bytes of its own
(R292); the host's later events stay its own (R9). -/
def State.applyReset (s : State) : State := (State.resetOf s.params (s.epoch + 1)).setInbox s.inbox

/-- The pending events with a command word put first. -/
def State.presentFirst (s : State) (cw : CommandWord) : State := s.setInbox (.command cw :: s.inbox)

end Sys2Proof.Machine
end

