-- ==== Sys2Proof/Machine/Access.lean ====
section
/-! DEFINITION. The system and access commands (40_access.md): NOP, RDREG, and the reads and writes of the unit's
memories. Each checks its operands, then makes the one access of its rule, or raises ValidationError (R100). -/

namespace Sys2Proof.Machine

/-- The common shape of R100: the access if the operands are in range, else ValidationError. -/
def State.guarded (s : State) (inRange : Bool) (access : Reply) : Host.Outcome State Fault Refusal :=
  Reply.complete (if inRange then access else .raise s .validationError)

/-- NOP (R102). -/
def execNop (s : State) : Host.Outcome State Fault Refusal := (Reply.value s 0).complete

/-- RDREG a (R101). -/
def execRdreg (a : Byte) (s : State) : Host.Outcome State Fault Refusal :=
  Reply.complete <|
    match Reg.ofNumber a with
    | none => .raise s .validationError
    | some r => .value s (s.regValue r)

/-- FRCNT a (R103). -/
def execFrcnt (a : Byte) (s : State) : Host.Outcome State Fault Refusal :=
  s.guarded (a.toNat ≤ s.params.fMax) (.value (s.setEnc { s.enc with nfrag := a }) 0)

/-- FRLEN a, b (R104). -/
def execFrlen (a b : Byte) (s : State) : Host.Outcome State Fault Refusal :=
  s.guarded (a.toNat < s.params.fMax && b.toNat ≤ s.params.mMax)
    (.value (s.setEnc { s.enc with srclen := s.enc.srclen.set a.toNat b }) 0)

/-- FRWR a, b, c (R105). -/
def execFrwr (a b c : Byte) (s : State) : Host.Outcome State Fault Refusal :=
  s.guarded (a.toNat < s.params.fMax && b.toNat < s.params.mMax)
    (.value (s.writeByte .src (cellKey a.toNat b.toNat) c) 0)

/-- FRRD a, b (R106). -/
def execFrrd (a b : Byte) (s : State) : Host.Outcome State Fault Refusal :=
  s.guarded (a.toNat < s.params.fMax && b.toNat < s.params.mMax)
    (.value s (s.readByte .src (cellKey a.toNat b.toNat)).toNat)

/-- CPRD a, b (R108). -/
def execCprd (a b : Byte) (s : State) : Host.Outcome State Fault Refusal :=
  s.guarded (a.toNat < s.enc.cpkn.toNat && b.toNat < s.enc.cpkg.toNat + s.enc.cpkm.toNat)
    (.value s (s.readByte .cpk (cellKey a.toNat b.toNat)).toNat)

/-- CPMD a, b (R107). -/
def execCpmd (a b : Byte) (s : State) : Host.Outcome State Fault Refusal :=
  Reply.complete <|
    match s.enc.packetMeta a.toNat b with
    | none => .raise s .validationError
    | some v => if a.toNat < s.enc.cpkn.toNat then .value s v.toNat else .raise s .validationError

/-- DPCNT a (R109). -/
def execDpcnt (a : Byte) (s : State) : Host.Outcome State Fault Refusal :=
  s.guarded (a.toNat ≤ s.params.pMax) (.value (s.setDec { s.dec with rows := a }) 0)

/-- DPWR a, b, c (R110). -/
def execDpwr (a b c : Byte) (s : State) : Host.Outcome State Fault Refusal :=
  s.guarded (a.toNat < s.params.pMax && b.toNat < s.dec.k.toNat + s.dec.m.toNat)
    (.value (s.writeByte .dpkt (cellKey a.toNat b.toNat) c) 0)

/-- DPRD a, b (R113). -/
def execDprd (a b : Byte) (s : State) : Host.Outcome State Fault Refusal :=
  s.guarded (a.toNat < s.params.pMax && b.toNat < s.dec.k.toNat + s.dec.m.toNat)
    (.value s (s.readByte .dpkt (cellKey a.toNat b.toNat)).toNat)

/-- DRRD a, b (R114). -/
def execDrrd (a b : Byte) (s : State) : Host.Outcome State Fault Refusal :=
  s.guarded (a.toNat < s.dec.resRows.toNat && b.toNat < s.dec.k.toNat + s.dec.m.toNat)
    (.value s (s.readByte .dres (cellKey a.toNat b.toNat)).toNat)

/-- The flags of result row `r` as DRFL answers them: `DPIV·256 + DRED·2 + DSUCC` (R111). -/
def DecRegs.rowFlags (x : DecRegs) (r : Nat) : Nat :=
  (x.piv.getD r 0#4).toNat * 256 + bitVal (x.red.getD r false) * 2 + bitVal (x.succ.getD r false)

/-- DRFL a (R111). -/
def execDrfl (a : Byte) (s : State) : Host.Outcome State Fault Refusal :=
  s.guarded (a.toNat < s.dec.resRows.toNat) (.value s (s.dec.rowFlags a.toNat))

/-- DSRD a (R112). -/
def execDsrd (a : Byte) (s : State) : Host.Outcome State Fault Refusal :=
  s.guarded (a.toNat < s.dec.nsel.toNat) (.value s (s.dec.sel.getD a.toNat 0#8).toNat)

/-- FIWR a, b (R116). -/
def execFiwr (a b : Byte) (s : State) : Host.Outcome State Fault Refusal :=
  s.guarded (a.toNat < Config.finSize) (.value (s.writeByte .fin a.toNat b) 0)

/-- FIRD a (R117). -/
def execFird (a : Byte) (s : State) : Host.Outcome State Fault Refusal :=
  s.guarded (a.toNat < Config.finSize) (.value s (s.readByte .fin a.toNat).toNat)

/-- FORD a, b (R115). -/
def execFord (a b : Byte) (s : State) : Host.Outcome State Fault Refusal :=
  s.guarded (joinedIndex a b < s.fc.foutn.toNat) (.value s (s.readByte .fout (joinedIndex a b)).toNat)

/-- RPRD a (R118). -/
def execRprd (a : Byte) (s : State) : Host.Outcome State Fault Refusal :=
  s.guarded (a.toNat < s.fc.rxpayn.toNat) (.value s (s.readByte .rxpay a.toNat).toNat)

end Sys2Proof.Machine
end

