-- ==== Sys2Proof/Machine/FieldUnit.lean ====
section
/-! DEFINITION. FA, the GF(256) field-arithmetic unit (41_field.md): the antilog and log tables (10_state.md R24,
R25), the five functions, and the meanings of GFADD, GFSUB, GFMUL, GFDIV, GFPOW. -/

namespace Sys2Proof.Machine

/-- The table ALOG as R24 prints it, row by row. Its last byte is no entry (ALOG has 255) and is never read. -/
def alogRows : List Nat :=
  [ 0x01020408102040801D3A74E8CD871326,
    0x4C982D5AB475EAC98F03060C183060C0,
    0x9D274E9C254A94356AD4B577EEC19F23,
    0x468C050A142850A05DBA69D2B96FDEA1,
    0x5FBE61C2992F5EBC65CA890F1E3C78F0,
    0xFDE7D3BB6BD6B17FFEE1DFA35BB671E2,
    0xD9AF4386112244880D1A3468D0BD67CE,
    0x811F3E7CF8EDC7933B76ECC5973366CC,
    0x85172E5CB86DDAA94F9E214284152A54,
    0xA84D9A2952A455AA49923972E4D5B773,
    0xE6D1BF63C6913F7EFCE5D7B37BF6F1FF,
    0xE3DBAB4B963162C495376EDCA557AE41,
    0x82193264C88D070E1C3870E0DDA753A6,
    0x51A259B279F2F9EFC39B2B56AC458A09,
    0x122448903D7AF4F5F7F3FBEBCB8B0B16,
    0x2C58B07DFAE9CF831B366CD8AD478E00 ]

/-- The table LOG as R25 prints it, row by row; the place of `LOG[0]`, which R25 leaves open, is never read. -/
def logRows : List Nat :=
  [ 0x0000011902321AC603DF33EE1B68C74B,
    0x0464E00E348DEF811CC169F8C8084C71,
    0x058A652FE1240F2135938EDAF0128245,
    0x1DB5C27D6A27F9B9C99A09784DE472A6,
    0x06BF8B6266DD30FDE29825B310912288,
    0x36D094CE8F96DBBDF1D2135C83384640,
    0x1E42B6A3C3487E6E6B3A2854FA85BA3D,
    0xCA5E9B9F0A15792B4ED4E5AC73F3A757,
    0x0770C0F78C80630D674ADEED31C5FE18,
    0xE3A5997726B8B47C114492D92320892E,
    0x373FD15B95BCCFCD908797B2DCFCBE61,
    0xF256D3AB142A5D9E843C3953476D41A2,
    0x1F2D43D8B77BA476C41749EC7F0C6FF6,
    0x6CA13B52299D55AAFB6086B1BBCC3E5A,
    0xCB595FB09CA9A0510BF516EB7A752CD7,
    0x4FAED5E9E6E7ADE874D6F4EAA85058AF ]

/-- `ALOG[i]` for `i` in 0..254 (R24). -/
def alog (i : Nat) : GF := ⟨romByte alogRows i⟩

/-- `LOG[v]` (R25); `LOG[0]` is a free value that no rule reads (log 8). -/
def gfLog (v : GF) : Nat := if v = GF.zero then Config.logOfZero else (romByte logRows v.byte.toNat).toNat

/-- `add(a, b)`, bitwise XOR (R131). -/
def gfAdd (x y : GF) : GF := ⟨x.byte ^^^ y.byte⟩

/-- `sub(a, b)`, the same as `add` (R131). -/
def gfSub (x y : GF) : GF := ⟨x.byte ^^^ y.byte⟩

/-- `mul(a, b)` (R132). -/
def gfMul (x y : GF) : GF :=
  if x = GF.zero ∨ y = GF.zero then GF.zero else alog ((gfLog x + gfLog y) % 255)

/-- `div(a, b)` for a divisor that is not zero (R133, last two lines). -/
def gfQuot (x y : GF) : GF :=
  if x = GF.zero then GF.zero else alog ((255 + gfLog x - gfLog y) % 255)

/-- `div(a, b)`: none for DivisionByZero, tested first (R133). -/
def gfDiv (x y : GF) : Option GF := if y = GF.zero then none else some (gfQuot x y)

/-- `pow(a, e)`: the product of `e` factors `a`, from the one element (R134). -/
def gfPow (x : GF) : Nat → GF
  | 0 => GF.one
  | e + 1 => gfMul (gfPow x e) x

/-- GFADD a, b (R136). -/
def execGfadd (a b : Byte) (s : State) : Host.Outcome State Fault Refusal :=
  (Reply.value s (gfAdd ⟨a⟩ ⟨b⟩).byte.toNat).complete

/-- GFSUB a, b (R137). -/
def execGfsub (a b : Byte) (s : State) : Host.Outcome State Fault Refusal :=
  (Reply.value s (gfSub ⟨a⟩ ⟨b⟩).byte.toNat).complete

/-- GFMUL a, b (R138). -/
def execGfmul (a b : Byte) (s : State) : Host.Outcome State Fault Refusal :=
  (Reply.value s (gfMul ⟨a⟩ ⟨b⟩).byte.toNat).complete

/-- GFDIV a, b (R139): DivisionByZero when `b = 0`, whatever `a` is. -/
def execGfdiv (a b : Byte) (s : State) : Host.Outcome State Fault Refusal :=
  Reply.complete <|
    match gfDiv ⟨a⟩ ⟨b⟩ with
    | none => .raise s .divisionByZero
    | some q => .value s q.byte.toNat

/-- GFPOW a, b (R140): `b` is a natural number, not a field element. -/
def execGfpow (a b : Byte) (s : State) : Host.Outcome State Fault Refusal :=
  (Reply.value s (gfPow ⟨a⟩ b.toNat).byte.toNat).complete

end Sys2Proof.Machine
end

