-- ==== Sys2Proof/Machine/Decoder.lean ====
section
/-! DEFINITION. DEC, the RLNC decoder (44_decoder.md): the Gauss-Jordan reduction, the classification of its rows,
and the meanings of DECCFG, DECRUN, DECGEN. -/

namespace Sys2Proof.Machine

/-- One row of the augmented matrix `[encodingVector | payload]` (R185). -/
abbrev Row := List GF

/-- The augmented matrix, row 0 first. -/
abbrev Matrix := List Row

/-- Entry `j` of a row. -/
def entry (row : Row) (j : Nat) : GF := row.getD j GF.zero

/-- `w = DEC_K + DEC_M`, the width of a row (R185). -/
def DecRegs.width (x : DecRegs) : Nat := x.k.toNat + x.m.toNat

/-- The accumulated set, rows 0..DROWS-1 of DPKT (R185): the private copy `M` that the reduction works on (R187). -/
def State.accumulated (s : State) : Matrix :=
  (List.range s.dec.rows.toNat).map fun r => (s.readRun .dpkt (cellKey r 0) s.dec.width).map fun b => ⟨b⟩

/-- Step 1 (R187): the least row at or after `piv` with a non-zero entry in column `c`. -/
def findPivot (m : Matrix) (piv c : Nat) : Option Nat :=
  (List.range m.length).find? fun i => decide (piv ≤ i) && entry (m.getD i []) c != GF.zero

/-- Step 2 (R187): divide the entries from column `c` on by the pivot value, which is not zero. -/
def normalize (row : Row) (c : Nat) : Row :=
  row.mapIdx fun j x => if j < c then x else gfQuot x (entry row c)

/-- Step 3 (R187): put the pivot row into slot `piv` and the row that stood there into the pivot row's place. -/
def exchange (m : Matrix) (r piv : Nat) (pivotRow : Row) : Matrix :=
  (m.set r (m.getD piv [])).set piv pivotRow

/-- Step 4 (R187) on one row: subtract the pivot row scaled by the row's entry in column `c`. -/
def eliminate (row pivotRow : Row) (c : Nat) : Row :=
  List.zipWith (fun x p => gfSub x (gfMul (entry row c) p)) row pivotRow

/-- The work on column `c` with `piv` pivots found so far (R187). -/
def reduceColumn (c : Nat) (mp : Matrix × Nat) : Matrix × Nat :=
  match findPivot mp.1 mp.2 c with
  | none => mp
  | some r =>
    let pivotRow := normalize (mp.1.getD r []) c
    let m := exchange mp.1 r mp.2 pivotRow
    (m.mapIdx fun i row => if i = mp.2 then row else eliminate row pivotRow c, mp.2 + 1)

/-- `Reduce()` over the first `k` columns: the reduced matrix and the number of pivots (R187). -/
def reduce (k : Nat) (m : Matrix) : Matrix × Nat :=
  (List.range k).foldl (fun mp c => reduceColumn c mp) (m, 0)

/-- The classification of one row (R190): its `decodingSuccess`, its `isRedundant`, and the position of its single 1. -/
structure RowClass where
  succ : Bool
  red : Bool
  piv : Nat
deriving DecidableEq, Repr

/-- Classify one row by its first `k` entries (R190). -/
def classifyRow (k : Nat) (row : Row) : RowClass :=
  match (List.range k).filter fun i => entry row i != GF.zero with
  | [] => { succ := false, red := true, piv := 0 }
  | [p] =>
    if entry row p = GF.one then { succ := true, red := false, piv := p }
    else { succ := false, red := false, piv := 0 }
  | _ => { succ := false, red := false, piv := 0 }

/-- Write the rows of a matrix into DRES, row by row (R190). -/
def State.writeRows (s : State) (r : Nat) : Matrix → State
  | [] => s
  | row :: rows => State.writeRows (s.writeRun .dres (cellKey r 0) (row.map GF.byte)) (r + 1) rows

/-- The result registers of a classification (R190); entries at or beyond the number of rows are kept (U3). -/
def DecRegs.withResult (x : DecRegs) (cs : List RowClass) (piv : Nat) : DecRegs :=
  { x with
    resRows := BitVec.ofNat 8 cs.length
    rank := BitVec.ofNat 5 piv
    nsucc := BitVec.ofNat 8 (cs.countP (·.succ))
    nred := BitVec.ofNat 8 (cs.countP (·.red))
    succ := setPrefix x.succ (cs.map (·.succ))
    red := setPrefix x.red (cs.map (·.red))
    piv := setPrefix x.piv (cs.map fun c => BitVec.ofNat 4 c.piv) }

/-- The list of innovative rows: `decodingSuccess` and not `isRedundant`, ascending (R192). -/
def innovative (cs : List RowClass) : List Nat :=
  (List.range cs.length).filter fun r =>
    match cs[r]? with
    | some c => c.succ && !c.red
    | none => false

/-- The DSEL registers: DECGEN's list of rows, or empty for DECRUN (R191, R192). -/
def DecRegs.withSelection (x : DecRegs) (sel : List Nat) : DecRegs :=
  { x with
    nsel := BitVec.ofNat 8 sel.length
    sel := setPrefix x.sel (sel.map fun r => BitVec.ofNat 8 r) }

/-- The classes of the reduced rows. -/
def State.classes (s : State) : List RowClass :=
  (reduce s.dec.k.toNat s.accumulated).1.map (classifyRow s.dec.k.toNat)

/-- `Reduce()` and `Classify(M, piv)` (R187, R190): DRES and the result registers; DPKT is not written. -/
def State.reduceAndClassify (s : State) : State :=
  let mp := reduce s.dec.k.toNat s.accumulated
  (s.writeRows 0 mp.1).setDec (s.dec.withResult s.classes mp.2)

/-- DECCFG a, b (R186): the shape; the accumulated set and the last result are emptied. -/
def execDeccfg (a b : Byte) (s : State) : Host.Outcome State Fault Refusal :=
  Reply.complete <|
    if a.toNat = 0 ∨ Config.kMax < a.toNat ∨ s.params.mMax < b.toNat then .raise s .validationError
    else
      .value
        (s.setDec
          { s.dec with
            k := BitVec.ofNat 5 a.toNat
            m := b
            rows := 0#8
            resRows := 0#8
            rank := 0#5
            nsucc := 0#8
            nred := 0#8
            nsel := 0#8 })
        0

/-- DECRUN (R191). -/
def execDecrun (s : State) : Host.Outcome State Fault Refusal :=
  Reply.complete <|
    if s.dec.k = 0#5 then .raise s .validationError
    else
      let t := s.reduceAndClassify
      .value (t.setDec (t.dec.withSelection [])) t.dec.nsucc.toNat

/-- DECGEN (R192). -/
def execDecgen (s : State) : Host.Outcome State Fault Refusal :=
  Reply.complete <|
    if s.dec.k = 0#5 then .raise s .validationError
    else
      let t := s.reduceAndClassify
      let x := t.dec.withSelection (innovative s.classes)
      .value (t.setDec x) x.nsel.toNat

end Sys2Proof.Machine
end

