-- ==== Sys2Proof/Machine/Lfsr.lean ====
section
/-! DEFINITION. CG, the Fibonacci-LFSR coefficient generator (42_lfsr.md): its shift register, its micro-operations,
and the meanings of LFSEED, LFRESET, LFGEN. -/

namespace Sys2Proof.Machine

/-- `LfsrStep(s)` (R150): the feedback is the XOR of bits 0, 1, 2 and 7; the register shifts toward bit 0 and the
feedback enters at bit 7. -/
def lfsrStep (v : Byte) : Byte :=
  let fb := ((v.getLsbD 0 ^^ v.getLsbD 1) ^^ v.getLsbD 2) ^^ v.getLsbD 7
  BitVec.ofBool fb ++ v.extractLsb' 1 7

/-- `LfsrReset()` (R152). -/
def CgRegs.rewind (x : CgRegs) : CgRegs := { x with state := x.seed, count := 0#8 }

/-- One draw of a coefficient, the part of `Generate()` after its test (R151); the coefficient is the new state. -/
def CgRegs.draw (x : CgRegs) : CgRegs := { x with state := lfsrStep x.state, count := x.count + 1#8 }

/-- `Generate()` (R151): none for CycleExhausted, tested first, so that nothing is changed. -/
def CgRegs.generate (x : CgRegs) : Option CgRegs :=
  if Config.cycleLimit ≤ x.count.toNat then none else some x.draw

/-- The coefficients of `n` draws in order, and the generator after them. The commands that draw several test the
whole budget before the first, so that none of these draws raises (R151; log 12). -/
def CgRegs.drawMany (x : CgRegs) : Nat → List Byte × CgRegs
  | 0 => ([], x)
  | n + 1 =>
    let y := x.draw
    let rest := CgRegs.drawMany y n
    (y.state :: rest.1, rest.2)

/-- LFSEED a (R153): load the seed and start the stream from it. -/
def execLfseed (a : Byte) (s : State) : Host.Outcome State Fault Refusal :=
  (Reply.value (s.setCg (CgRegs.rewind { s.cg with seed := a })) 0).complete

/-- LFRESET (R154). -/
def execLfreset (s : State) : Host.Outcome State Fault Refusal :=
  (Reply.value (s.setCg s.cg.rewind) 0).complete

/-- LFGEN (R155). -/
def execLfgen (s : State) : Host.Outcome State Fault Refusal :=
  Reply.complete <|
    match s.cg.generate with
    | none => .raise s .cycleExhausted
    | some x => .value (s.setCg x) x.state.toNat

end Sys2Proof.Machine
end

