-- ==== Sys2Proof/Machine/Encoder.lean ====
section
/-! DEFINITION. ENC, the RLNC encoder (43_encoder.md): its micro-operations, shared with the session sequencer, and
the meanings of ENCPREP and ENCPRE. -/

namespace Sys2Proof.Machine

/-- `ceil(n / k)` with `k ≥ 1` (R141). -/
def ceilDiv (n k : Nat) : Nat := (n + k - 1) / k

/-- `SRCLEN[f]` (R30). -/
def EncRegs.lenOf (x : EncRegs) (f : Nat) : Byte := x.srclen.getD f 0#8

/-- All staged fragments have one length (R167). -/
def EncRegs.equalLengths (x : EncRegs) : Bool :=
  (List.range x.nfrag.toNat).all fun f => x.lenOf f == x.lenOf 0

/-- `Preprocess(k)` (R167): none for ValidationError; both checks come before any write. -/
def EncRegs.preprocess (x : EncRegs) (k : Nat) : Option EncRegs :=
  if 1 ≤ k ∧ k ≤ Config.kMax ∧ x.equalLengths then
    some
      { x with
        k := BitVec.ofNat 5 k
        n := x.nfrag
        m := if 0 < x.nfrag.toNat then x.lenOf 0 else 0#8
        ngen := BitVec.ofNat 8 (ceilDiv x.nfrag.toNat k)
        gen := 0#8
        valid := true }
  else none

/-- `GenSize(gi)`, the number of source fragments in generation `gi` (R166). -/
def EncRegs.genSize (x : EncRegs) (gi : Nat) : Nat := min x.k.toNat (x.n.toNat - gi * x.k.toNat)

/-- `Σ_i coeff_i · fragment_i` over GF(256), one symbol (R168). -/
def weightedSum : List Byte → List Byte → GF
  | w :: ws, f :: fs => gfAdd (gfMul ⟨w⟩ ⟨f⟩) (weightedSum ws fs)
  | _, _ => GF.zero

/-- Symbol `x` of each of the `g` fragments of generation `gi`, in their order (R165). -/
def State.column (s : State) (gi g x : Nat) : List Byte :=
  (List.range g).map fun i => s.readByte .src (cellKey (gi * s.enc.k.toNat + i) x)

/-- The payload of a packet of generation `gi` with the given vector (R168). -/
def State.payload (s : State) (gi : Nat) (vec : List Byte) : List Byte :=
  (List.range s.enc.m.toNat).map fun x => (weightedSum vec (s.column gi vec.length x)).byte

/-- `EncodeOne(gi, j)` (R168): one coded packet of generation `gi` into slot `j` of CPK, and the generator's states
before and after it. Its precondition is tested by the commands that use it. -/
def State.encodeOne (s : State) (gi j : Nat) : State :=
  let drawn := s.cg.drawMany (s.enc.genSize gi)
  let packet := drawn.1 ++ s.payload gi drawn.1
  ((s.writeRun .cpk (cellKey j 0) packet).setCg drawn.2).setEnc
    { s.enc with
      cpkpre := s.enc.cpkpre.set j s.cg.state
      cpkpost := s.enc.cpkpost.set j drawn.2.state }

/-- `EncodeOne` into the slots `j, j+1, …`, `count` packets in slot order (R170). -/
def State.encodeMany (s : State) (gi j : Nat) : Nat → State
  | 0 => s
  | count + 1 => State.encodeMany (s.encodeOne gi j) gi (j + 1) count

/-- What the packets in CPK are: their number, vector length, payload length and generation (R32). -/
def EncRegs.describe (x : EncRegs) (count g gi : Nat) : EncRegs :=
  { x with
    cpkn := BitVec.ofNat 8 count
    cpkg := BitVec.ofNat 5 g
    cpkm := x.m
    cpkgen := BitVec.ofNat 8 gi }

/-- `AdvancePointer()` (R172); SADV guards it. -/
def EncRegs.advancePointer (x : EncRegs) : EncRegs := { x with gen := x.gen + 1#8 }

/-- ENCPREP a (R169). -/
def execEncprep (a : Byte) (s : State) : Host.Outcome State Fault Refusal :=
  Reply.complete <|
    match s.enc.preprocess a.toNat with
    | none => .raise s .validationError
    | some x => .value (s.setEnc x) x.ngen.toNat

/-- ENCPRE a, b (R170): the three validation tests, then the cycle test, then the packets. -/
def execEncpre (a b : Byte) (s : State) : Host.Outcome State Fault Refusal :=
  let gi := a.toNat
  let g := s.enc.genSize gi
  let count := g + b.toNat
  Reply.complete <|
    if s.enc.valid = false ∨ s.enc.ngen.toNat ≤ gi ∨ s.params.cMax < count then .raise s .validationError
    else if Config.cycleLimit < s.cg.count.toNat + count * g then .raise s .cycleExhausted
    else
      let t := s.encodeMany gi 0 count
      .value (t.setEnc (t.enc.describe count g gi)) count

end Sys2Proof.Machine
end

