-- ==== Sys2Proof/Machine/FrameCodec.lean ====
section
/-! DEFINITION. FC, the frame codec (46_framecodec.md): CRC-8, COBS, the wire frame, the receive reassembler, and the
meanings of CRC8, COBSENC, COBSDEC, FRBUILD, RXBYTE. -/

namespace Sys2Proof.Machine

/-- The table CRCT as R26 prints it, row by row. -/
def crcRows : List Nat :=
  [ 0x00D57FAAFE2B815429FC5683D702A87D,
    0x52872DF8AC79D3067BAE04D18550FA2F,
    0xA471DB0E5A8F25F08D58F22773A60CD9,
    0xF623895C08DD77A2DF0AA07521F45E8B,
    0x9D48E23763B61CC9B461CB1E4A9F35E0,
    0xCF1AB06531E44E9BE633994C18CD67B2,
    0x39EC4693C712B86D10C56FBAEE3B9144,
    0x6BBE14C19540EA3F42973DE8BC69C316,
    0xEF3A904511C46EBBC613B96C38ED4792,
    0xBD68C21743963CE99441EB3E6ABF15C0,
    0x4B9E34E1B560CA1F62B71DC89C49E336,
    0x19CC66B3E732984D30E54F9ACE1BB164,
    0x72A70DD88C59F3265B8E24F1A570DA0F,
    0x20F55F8ADE0BA17409DC76A3F722885D,
    0xD603A97C28FD5782FF2A805501D47EAB,
    0x8451FB2E7AAF05D0AD78D20753862CF9 ]

/-- `CRCT[v]` (R26). -/
def crcTable (v : Byte) : Byte := romByte crcRows v.toNat

/-- `Crc8(d)` (R241): initial value 0xFF, one lookup per byte, no final XOR. -/
def crc8 (d : List Byte) : Byte := d.foldl (fun crc b => crcTable (crc ^^^ b)) 0xFF#8

/-- The COBS encoder between two input bytes (R243): the output so far, the index of its open slot, and the
distance counter. An open slot holds 0 until it is backfilled. -/
structure CobsState where
  out : List Byte
  code : Nat
  dist : Nat
deriving DecidableEq, Repr

/-- The encoder before the first byte: one reserved slot (R243). -/
def CobsState.start : CobsState := { out := [0#8], code := 0, dist := 1 }

/-- Backfill the open slot with the distance and reserve a new slot at the end (R243). -/
def CobsState.newSlot (x : CobsState) : CobsState :=
  { out := x.out.set x.code (BitVec.ofNat 8 x.dist) ++ [0#8], code := x.out.length, dist := 1 }

/-- One input byte (R243). -/
def CobsState.push (x : CobsState) (b : Byte) : CobsState :=
  if b = 0#8 then x.newSlot
  else
    let y := { x with out := x.out ++ [b], dist := x.dist + 1 }
    if y.dist = 0xFF then y.newSlot else y

/-- The end of the scan (R243): backfill the final distance, unless the output passed the maximum frame size, where
the slot just opened is dropped. -/
def CobsState.finish (x : CobsState) : List Byte :=
  if x.out.length ≤ Config.cobsOutMax then x.out.set x.code (BitVec.ofNat 8 x.dist) else x.out.dropLast

/-- `CobsEncode(d)` for at most 254 bytes (R243). -/
def cobsEncode (d : List Byte) : List Byte := (d.foldl CobsState.push CobsState.start).finish

/-- The loop of `CobsDecode` (R245) on the input that remains, with the output so far; every round takes at least one
byte, so `fuel` equal to the input's length is enough. -/
def cobsDecodeLoop : Nat → List Byte → List Byte → List Byte
  | _, [], out => out
  | 0, _ :: _, out => out
  | fuel + 1, d :: rest, out =>
    if d = 0#8 ∨ rest.length + 1 < d.toNat then []
    else
      let tail := rest.drop (d.toNat - 1)
      let out' := out ++ rest.take (d.toNat - 1)
      cobsDecodeLoop fuel tail (if d.toNat < 0xFF ∧ tail ≠ [] then out' ++ [0#8] else out')

/-- `CobsDecode(e)` (R245); malformed input gives the empty result. -/
def cobsDecode (e : List Byte) : List Byte := cobsDecodeLoop e.length e []

/-- The wire frame of a payload of at most 252 bytes (R240, R247). -/
def wireFrame (p : List Byte) : List Byte :=
  let cob := cobsEncode (crc8 p :: BitVec.ofNat 8 p.length :: p)
  0xFF#8 :: BitVec.ofNat 8 (p.length + 3) :: cob ++ [0x00#8]

/-- The bytes `FIN[0..n-1]`. -/
def State.finBytes (s : State) (n : Nat) : List Byte := s.readRun .fin 0 n

/-- Put a codec output into FOUT from index 0 and its length into FOUTN; bytes beyond it are kept (U4). -/
def State.putFout (s : State) (bs : List Byte) : State :=
  (s.writeRun .fout 0 bs).setFc { s.fc with foutn := BitVec.ofNat 9 bs.length }

/-- CRC8 a (R242). -/
def execCrc8 (a : Byte) (s : State) : Host.Outcome State Fault Refusal :=
  (Reply.value s (crc8 (s.finBytes a.toNat)).toNat).complete

/-- COBSENC a (R244). -/
def execCobsenc (a : Byte) (s : State) : Host.Outcome State Fault Refusal :=
  Reply.complete <|
    if Config.cobsInMax < a.toNat then .raise s .validationError
    else .value (s.putFout (cobsEncode (s.finBytes a.toNat))) (a.toNat + 1)

/-- COBSDEC a (R246): the failing command sets FOUTN to 0 (R272). -/
def execCobsdec (a : Byte) (s : State) : Host.Outcome State Fault Refusal :=
  Reply.complete <|
    match cobsDecode (s.finBytes a.toNat) with
    | [] => .raise (s.setFc { s.fc with foutn := 0#9 }) .framingError
    | b :: bs => .value (s.putFout (b :: bs)) (bs.length + 1)

/-- FRBUILD a (R247). -/
def execFrbuild (a : Byte) (s : State) : Host.Outcome State Fault Refusal :=
  Reply.complete <|
    if Config.payloadMax < a.toNat then .raise s .validationError
    else .value (s.putFout (wireFrame (s.finBytes a.toNat))) (a.toNat + 6)

/-- What `CheckFrame()` finds in a complete frame (R251): the cause of a drop (R252), or a payload to deliver. -/
inductive FrameVerdict where
  | drop (cause : Nat)
  | deliver (payload : List Byte)
deriving DecidableEq, Repr

/-- The checks on the decoded content `CRC8 · len · payload` of a frame (R251), in their order. -/
def checkContent : List Byte → FrameVerdict
  | [] => .drop 3
  | [_] => .drop 4
  | crc :: len :: payload =>
    if len.toNat ≠ payload.length then .drop 5
    else if crc8 payload ≠ crc then .drop 6
    else .deliver payload

/-- `CheckFrame()` (R251) on the buffered bytes, start and end byte included. -/
def checkFrame (buf : List Byte) : FrameVerdict :=
  if buf.length < 3 then .drop 1
  else if (buf.getD 1 0#8).toNat + 3 < buf.length then .drop 2
  else checkContent (cobsDecode ((buf.drop 2).take (buf.length - 3)))

/-- `Drop(cause)` (R250): the partial frame is discarded. -/
def State.dropFrame (s : State) (cause : Nat) : Reply :=
  .raise (s.setFc { s.fc with rxsync := false, rxn := 0#9, frCause := BitVec.ofNat 3 cause }) .framingError

/-- The delivery of a payload (R251). -/
def State.deliver (s : State) (payload : List Byte) : Reply :=
  .value
    ((s.writeRun .rxpay 0 payload).setFc
      { s.fc with
        rxsync := false, rxn := 0#9, rxpayn := BitVec.ofNat 8 payload.length, frCause := 0#3 })
    1

/-- The byte joins the frame being collected (R250); a zero byte completes it. -/
def State.collect (s : State) (a : Byte) : Reply :=
  let t := (s.writeByte .rxbuf s.fc.rxn.toNat a).setFc { s.fc with rxn := s.fc.rxn + 1#9 }
  if a ≠ 0x00#8 then .value t 0
  else
    match checkFrame (t.readRun .rxbuf 0 t.fc.rxn.toNat) with
    | .drop cause => t.dropFrame cause
    | .deliver payload => t.deliver payload

/-- RXBYTE a (R250): search for a start byte, then collect, then check. -/
def execRxbyte (a : Byte) (s : State) : Host.Outcome State Fault Refusal :=
  Reply.complete <|
    if s.fc.rxsync = false then
      if a = 0xFF#8 then
        .value ((s.writeByte .rxbuf 0 0xFF#8).setFc { s.fc with rxn := 1#9, rxsync := true }) 0
      else .value s 0
    else if s.fc.rxn = 258#9 then s.dropFrame 7
    else s.collect a

end Sys2Proof.Machine
end

