-- ==== Sys2Proof/Machine/Session.lean ====
section
/-! DEFINITION. SC, the FUOTA session sequencer (45_session.md): the meanings of CFGSET, CFGLOAD, SSTART, SFETCH, SADV,
SSTOP, SGENC, SLAST, SDONE. Its predicates stand in `Flags.lean`. -/

namespace Sys2Proof.Machine

/-- CFGSET a, b (R215). -/
def execCfgset (a b : Byte) (s : State) : Host.Outcome State Fault Refusal :=
  Reply.complete <|
    match s.cfg.setField a b with
    | none => .raise s .validationError
    | some x => .value (s.setCfg x) 0

/-- CFGLOAD (R216). -/
def execCfgload (s : State) : Host.Outcome State Fault Refusal :=
  (Reply.value (s.setCfg { s.cfg with loaded := true }) 0).complete

/-- The session that SSTART creates from the configuration and the preprocessed encoder (R214). -/
def SessRegs.create (c : CfgRegs) (x : EncRegs) : SessRegs :=
  { active := true, k := BitVec.ofNat 5 c.k.toNat, red := c.red, seed := c.seed, curGen := 0#8, curFrag := 0#8,
    genCount := x.ngen, totalFrags := x.n, fsize := x.m,
    metaSeq := 0#8, metaGen := 0#8, metaPre := 0#8, metaPost := 0#8 }

/-- SSTART (R214): all checks, the last two inside `Preprocess`, come before any write. -/
def execSstart (s : State) : Host.Outcome State Fault Refusal :=
  Reply.complete <|
    if s.cfg.loaded = false ∨ s.sess.active = true then .raise s .validationError
    else
      match s.enc.preprocess s.cfg.k.toNat with
      | none => .raise s .validationError
      | some x =>
        .value
          (((s.setEnc x).setCg (CgRegs.rewind { s.cg with seed := s.cfg.seed })).setSess (SessRegs.create s.cfg x))
          x.ngen.toNat

/-- The session after a fetch (R217): the metadata of the packet, and one more fragment. -/
def SessRegs.afterFetch (x : SessRegs) (pre post : Byte) : SessRegs :=
  { x with
    metaSeq := x.curFrag, metaGen := x.curGen, metaPre := pre, metaPost := post, curFrag := x.curFrag + 1#8 }

/-- SFETCH (R217): the validation tests, then the cycle test, then one packet into slot 0. -/
def execSfetch (s : State) : Host.Outcome State Fault Refusal :=
  let gi := s.enc.gen.toNat
  let g := s.enc.genSize gi
  Reply.complete <|
    if s.sess.active = false ∨ s.sess.genComplete = true ∨ s.enc.valid = false ∨ s.enc.ngen.toNat ≤ gi ∨
        s.sess.curFrag = 255#8 then .raise s .validationError
    else if Config.cycleLimit < s.cg.count.toNat + g then .raise s .cycleExhausted
    else
      let t := s.encodeOne gi 0
      let x := s.sess.afterFetch s.cg.state t.cg.state
      .value ((t.setEnc (t.enc.describe 1 g gi)).setSess x) x.curFrag.toNat

/-- SADV (R219): the generator is untouched. -/
def execSadv (s : State) : Host.Outcome State Fault Refusal :=
  Reply.complete <|
    if s.sess.active = false ∨ s.sess.curGen = 255#8 ∨ s.enc.gen = 255#8 then .raise s .validationError
    else
      let x := { s.sess with curGen := s.sess.curGen + 1#8, curFrag := 0#8 }
      .value ((s.setSess x).setEnc s.enc.advancePointer) x.curGen.toNat

/-- SSTOP (R218): never fails. -/
def execSstop (s : State) : Host.Outcome State Fault Refusal :=
  (Reply.value
    (((s.setSess SessRegs.absent).setEnc { s.enc with nfrag := 0#8, valid := false }).setCg s.cg.rewind) 0).complete

/-- A predicate of a present session as a command (R220 to R222). -/
def State.askSession (s : State) (p : SessRegs → Bool) : Reply :=
  if s.sess.active = false then .raise s .validationError else .value s (bitVal (p s.sess))

/-- SGENC (R220). -/
def execSgenc (s : State) : Host.Outcome State Fault Refusal := (s.askSession SessRegs.genComplete).complete

/-- SLAST (R221). -/
def execSlast (s : State) : Host.Outcome State Fault Refusal := (s.askSession SessRegs.lastGen).complete

/-- SDONE (R222). -/
def execSdone (s : State) : Host.Outcome State Fault Refusal := (s.askSession SessRegs.done).complete

end Sys2Proof.Machine
end

