-- ==== Sys2Proof/Machine/Dispatch.lean ====
section
/-! DEFINITION. One arm for each of the 45 commands (30_encoding.md R84), each one call of its meaning. -/

namespace Sys2Proof.Machine

def exec (i : Instr) (s : State) : Host.Outcome State Fault Refusal :=
  match i with
  | .nop => Sys2Proof.Machine.execNop s
  | .rdreg a => Sys2Proof.Machine.execRdreg a s
  | .frcnt a => Sys2Proof.Machine.execFrcnt a s
  | .frlen a b => Sys2Proof.Machine.execFrlen a b s
  | .frwr a b c => Sys2Proof.Machine.execFrwr a b c s
  | .frrd a b => Sys2Proof.Machine.execFrrd a b s
  | .cprd a b => Sys2Proof.Machine.execCprd a b s
  | .cpmd a b => Sys2Proof.Machine.execCpmd a b s
  | .dpcnt a => Sys2Proof.Machine.execDpcnt a s
  | .dpwr a b c => Sys2Proof.Machine.execDpwr a b c s
  | .dprd a b => Sys2Proof.Machine.execDprd a b s
  | .drrd a b => Sys2Proof.Machine.execDrrd a b s
  | .drfl a => Sys2Proof.Machine.execDrfl a s
  | .dsrd a => Sys2Proof.Machine.execDsrd a s
  | .fiwr a b => Sys2Proof.Machine.execFiwr a b s
  | .fird a => Sys2Proof.Machine.execFird a s
  | .ford a b => Sys2Proof.Machine.execFord a b s
  | .rprd a => Sys2Proof.Machine.execRprd a s
  | .gfadd a b => Sys2Proof.Machine.execGfadd a b s
  | .gfsub a b => Sys2Proof.Machine.execGfsub a b s
  | .gfmul a b => Sys2Proof.Machine.execGfmul a b s
  | .gfdiv a b => Sys2Proof.Machine.execGfdiv a b s
  | .gfpow a b => Sys2Proof.Machine.execGfpow a b s
  | .lfseed a => Sys2Proof.Machine.execLfseed a s
  | .lfreset => Sys2Proof.Machine.execLfreset s
  | .lfgen => Sys2Proof.Machine.execLfgen s
  | .encprep a => Sys2Proof.Machine.execEncprep a s
  | .encpre a b => Sys2Proof.Machine.execEncpre a b s
  | .deccfg a b => Sys2Proof.Machine.execDeccfg a b s
  | .decrun => Sys2Proof.Machine.execDecrun s
  | .decgen => Sys2Proof.Machine.execDecgen s
  | .cfgset a b => Sys2Proof.Machine.execCfgset a b s
  | .cfgload => Sys2Proof.Machine.execCfgload s
  | .sstart => Sys2Proof.Machine.execSstart s
  | .sfetch => Sys2Proof.Machine.execSfetch s
  | .sadv => Sys2Proof.Machine.execSadv s
  | .sstop => Sys2Proof.Machine.execSstop s
  | .sgenc => Sys2Proof.Machine.execSgenc s
  | .slast => Sys2Proof.Machine.execSlast s
  | .sdone => Sys2Proof.Machine.execSdone s
  | .crc8 a => Sys2Proof.Machine.execCrc8 a s
  | .cobsenc a => Sys2Proof.Machine.execCobsenc a s
  | .cobsdec a => Sys2Proof.Machine.execCobsdec a s
  | .frbuild a => Sys2Proof.Machine.execFrbuild a s
  | .rxbyte a => Sys2Proof.Machine.execRxbyte a s

end Sys2Proof.Machine
end

