-- ==== Sys2Proof/Machine/Step.lean ====
section
/-! DEFINITION. One step of the machine: it takes the next thing the host has done (00_scope.md R8, R11). -/

namespace Sys2Proof.Machine

/-- Execute one command word completely (30_encoding.md R80): a word that is no command is rejected (R85). -/
def execWord (cw : CommandWord) (s : State) : Host.Outcome State Fault Refusal :=
  match decode cw with
  | .ok i => exec i s
  | .error _ => .next s.rejectWord

/-- One step. With nothing pending the unit is idle and its state does not change (60_exceptions.md R284); a reset
puts it in the reset state (R290); a command word is executed (R80). There is no program counter to advance
(R21): the word is taken from the host. -/
def step (s : State) : Host.Outcome State Fault Refusal :=
  match s.inbox with
  | [] => .next s
  | .reset :: rest => .next (s.setInbox rest).applyReset
  | .command cw :: rest => execWord cw (s.setInbox rest)

/-- `s` with the command word whose bits are `w` presented next: the unit loads its program from outside, one word
after another (R21), so the word goes to the front of what the host has presented (log 1). A command is one
32-bit word (R80), so bits above `nbits` are zero and there is nothing above bit 31. -/
def State.withFetchWord (s : State) (nbits w : Nat) : State :=
  s.presentFirst (BitVec.ofNat 32 (w % 2 ^ nbits))

end Sys2Proof.Machine
end

