-- ==== Sys2Proof/Safety.lean ====
section
/-! DEFINITION. What counts as a good state and a safe run: the invariants of 10_state.md R41 with the ranges of
R29 to R38 and the shapes of R39, what a run is, and the frame predicates that statements use. -/

namespace Sys2Proof.Machine

/-- Every listed byte of every memory is inside the memory's physical shape and the listing is in its canonical
form: what R64 derives ("the computing commands never form an out-of-range index"). -/
def State.MemoriesOk (s : State) : Prop :=
  ∀ sp : Space, Memory.wf (s.mem.get sp) = true ∧
    ∀ cell ∈ s.mem.get sp, Space.inShape s.params sp cell.1 = true

/-- The encoder's part of R41, with the ranges of R30, R31 and R32 and the lengths of its register arrays. -/
structure State.EncoderOk (s : State) : Prop where
  nfrag : s.enc.nfrag.toNat ≤ s.params.fMax
  srclenLength : s.enc.srclen.length = s.params.fMax
  srclen : ∀ x ∈ s.enc.srclen, x.toNat ≤ s.params.mMax
  k : s.enc.k.toNat ≤ 16
  m : s.enc.m.toNat ≤ s.params.mMax
  n : s.enc.n.toNat ≤ s.params.fMax
  ngen : s.enc.ngen.toNat ≤ s.params.fMax
  valid : s.enc.valid = true → 1 ≤ s.enc.k.toNat ∧ s.enc.ngen.toNat = ceilDiv s.enc.n.toNat s.enc.k.toNat
  cpkn : s.enc.cpkn.toNat ≤ s.params.cMax
  cpkg : s.enc.cpkg.toNat ≤ 16
  cpkm : s.enc.cpkm.toNat ≤ s.params.mMax
  cpkpreLength : s.enc.cpkpre.length = s.params.cMax
  cpkpostLength : s.enc.cpkpost.length = s.params.cMax

/-- The decoder's part of R41, with the ranges of R33 and R34, the lengths of its register arrays, and that no row of
the result is both successful and redundant (R190). -/
structure State.DecoderOk (s : State) : Prop where
  k : s.dec.k.toNat ≤ 16
  m : s.dec.m.toNat ≤ s.params.mMax
  rows : s.dec.rows.toNat ≤ s.params.pMax
  resRows : s.dec.resRows.toNat ≤ s.params.pMax
  rankK : s.dec.rank.toNat ≤ s.dec.k.toNat
  rankRows : s.dec.rank.toNat ≤ s.dec.resRows.toNat
  classes : s.dec.nsucc.toNat + s.dec.nred.toNat ≤ s.dec.resRows.toNat
  nsel : s.dec.nsel.toNat ≤ s.dec.resRows.toNat
  exclusive : ∀ r < s.dec.resRows.toNat, ¬ (s.dec.succ.getD r false = true ∧ s.dec.red.getD r false = true)
  succLength : s.dec.succ.length = s.params.pMax
  redLength : s.dec.red.length = s.params.pMax
  pivLength : s.dec.piv.length = s.params.pMax
  selLength : s.dec.sel.length = s.params.pMax

/-- The session's part of R41, with the ranges of R36; an absent session has every register at 0 (R210). -/
structure State.SessionOk (s : State) : Prop where
  active : s.sess.active = true → s.enc.valid = true ∧ 1 ≤ s.sess.k.toNat
  absent : s.sess.active = false → s.sess = SessRegs.absent
  k : s.sess.k.toNat ≤ 16
  genCount : s.sess.genCount.toNat ≤ s.params.fMax
  totalFrags : s.sess.totalFrags.toNat ≤ s.params.fMax
  fsize : s.sess.fsize.toNat ≤ s.params.mMax

/-- The frame codec's part of R41. -/
structure State.CodecOk (s : State) : Prop where
  foutn : s.fc.foutn.toNat ≤ 258
  rxn : s.fc.rxn.toNat ≤ 258
  rxpayn : s.fc.rxpayn.toNat ≤ 252
  unsynced : s.fc.rxsync = false → s.fc.rxn = 0#9
  synced : s.fc.rxsync = true → 1 ≤ s.fc.rxn.toNat ∧ s.readByte .rxbuf 0 = 0xFF#8

/-- The invariants of R41, of an instance whose capacities are as R7 constrains them; ERRLOG bit 0 is always 0
(R28). -/
structure State.Inv (s : State) : Prop where
  params : s.params.Ok
  errlog : s.errlog.getLsbD 0 = false
  encoder : s.EncoderOk
  decoder : s.DecoderOk
  session : s.SessionOk
  codec : s.CodecOk
  memories : s.MemoriesOk

/-- The states that a unit of the given capacities can be in: reset, and then steps, with the host presenting
further events at any time (R11). -/
inductive Reachable (p : Params) : State → Prop where
  | reset (epoch : Nat) : Reachable p (State.resetOf p epoch)
  | present {s : State} (e : List HostEvent) : Reachable p s → Reachable p (s.setInbox (s.inbox ++ e))
  | step {s t : State} : Reachable p s → Machine.step s = .next t → Reachable p t

/-- Every byte of every memory reads the same in both states. -/
def SameBytes (s t : State) : Prop := ∀ (sp : Space) (key : Nat), t.readByte sp key = s.readByte sp key

/-- Every byte reads the same in both states, but for those of one memory whose key is among the given ones. -/
def SameBytesBut (sp : Space) (stored : Nat → Prop) (s t : State) : Prop :=
  ∀ (sp' : Space) (key : Nat), ¬ (sp' = sp ∧ stored key) → t.readByte sp' key = s.readByte sp' key

/-- Every register but the response and ERRLOG is the same: this instance's capacities, the host's pending events,
the reset counter, and the registers of CG, ENC, DEC, SC and FC. -/
structure SameUnits (s t : State) : Prop where
  params : t.params = s.params
  epoch : t.epoch = s.epoch
  inbox : t.inbox = s.inbox
  cg : t.cg = s.cg
  enc : t.enc = s.enc
  dec : t.dec = s.dec
  cfg : t.cfg = s.cfg
  sess : t.sess = s.sess
  fc : t.fc = s.fc

/-- The response word of a command that succeeds with a value: status 0, a zero byte, the value (R83). -/
def okWord (v : Nat) : ResponseWord := 0x0000#16 ++ BitVec.ofNat 16 v

/-- `s` after a command that succeeds with a value and changes nothing but the response (R83). -/
def okAfter (s : State) (v : Nat) : State := { s with response := some (okWord v) }

/-- What a failing command leaves when it changes nothing of its own (R272): the ERRLOG bit of its status code, and
the response with that status and value 0 (R28, R83, R270). -/
def errAfter (s : State) (st : Nat) : State :=
  { s with errlog := s.errlog ||| (1#6 <<< st), response := some (BitVec.ofNat 8 st ++ 0x000000#24) }

/-- `val` of a response word (R83). -/
def responseVal (rw : ResponseWord) : Nat := (rw.extractLsb' 0 16).toNat

/-- `st` of a response word (R83). -/
def responseStatus (rw : ResponseWord) : Nat := (rw.extractLsb' 24 8).toNat

end Sys2Proof.Machine
end

