-- ==== Sys2Proof/Certificates/Slice0/Obligations.lean ====
section
/-! DEFINITION. The statements for the provers, from the numbered rules of `spec/`, and the few definitions they
share. Registers that a statement's state equation does not name, and every byte of memory, are unchanged by it; a
statement about a command that stores names the key it stores to and says that every other byte reads as before. -/

open Sys2Proof Sys2Proof.Machine

namespace Sys2Proof.Certificates

/-- A command's encoding (R81, R82, R85): its word is `op ‖ a ‖ b ‖ c`, that word decodes to it, and a word with its
opcode whose reserved fields are not all zero is no command. -/
def HasWord (i : Instr) (op a b c : Byte) : Prop :=
  encode i = op ++ a ++ b ++ c ∧ decode (op ++ a ++ b ++ c) = .ok i ∧
    ∀ cw : CommandWord, fieldOp cw = op → i.row.format.admits (fieldA cw, fieldB cw, fieldC cw) = false →
      decode cw = .error (.reservedField op)

/-- The product of two bytes as polynomials over GF(2): `a·x^i` for each bit `i` of `b`, summed by XOR. -/
def polyProduct (a b : Byte) : BitVec 16 :=
  (List.range 8).foldl (fun acc i => if b.getLsbD i then acc ^^^ (a.setWidth 16 <<< i) else acc) 0#16

/-- The remainder of a polynomial of degree at most 14 modulo 0x11D: its bits 14 down to 8 cleared in turn. -/
def polyRemainder (v : BitVec 16) : Byte :=
  (([14, 13, 12, 11, 10, 9, 8].foldl
    (fun (acc : BitVec 16) i => if acc.getLsbD i then acc ^^^ (0x011D#16 <<< (i - 8)) else acc) v)).setWidth 8

/-- Multiplication modulo 0x11D without tables (R135): what `mul` is derived to be. -/
def polyMul (a b : Byte) : Byte := polyRemainder (polyProduct a b)

/-- The sum of bytes in GF(256), by XOR (R131). -/
def xorSum (bs : List Byte) : Byte := bs.foldr (fun b acc => b ^^^ acc) 0#8

/-- The sum over `j < n` of the terms `f j`. -/
def xorSumTo (n : Nat) (f : Nat → Byte) : Byte := xorSum ((List.range n).map f)

/-- Byte `j` of row `i` of a two-dimensional memory. -/
def cell (s : State) (sp : Space) (i j : Nat) : Byte := s.readByte sp (cellKey i j)

/-- One step of the bitwise CRC with polynomial 0xD5, most significant bit first (R26). -/
def crcBit (c : Byte) : Byte := if c.msb then (c <<< 1) ^^^ 0xD5#8 else c <<< 1

/-- The CRC of a byte sequence, bit by bit (R26, R241). -/
def crcBitwise (d : List Byte) : Byte := d.foldl (fun crc b => crcBit^[8] (crc ^^^ b)) 0xFF#8

/-- COBS by blocks (R243): the bytes before the first zero, at most 254 of them, behind their number plus one; a full
block of 254 has the code 0xFF and takes no zero with it. -/
def cobsBlocks : Nat → List Byte → List Byte
  | 0, _ => []
  | fuel + 1, d =>
    let run := d.takeWhile (· ≠ 0x00#8)
    if 254 ≤ run.length then
      0xFF#8 :: run.take 254 ++ (if d.length = 254 then [] else cobsBlocks fuel (d.drop 254))
    else
      BitVec.ofNat 8 (run.length + 1) :: run ++
        (if run.length = d.length then [] else cobsBlocks fuel (d.drop (run.length + 1)))

/-- A byte sequence read as runs (R245): a code `d` that is not zero, `d - 1` bytes as they are, and, where more follows
and `d` is below 0xFF, a zero. -/
inductive CobsRuns : List Byte → List Byte → Prop where
  | none : CobsRuns [] []
  | last (d : Byte) (run : List Byte) : run.length + 1 = d.toNat → CobsRuns (d :: run) run
  | more (d : Byte) (run rest out : List Byte) : run.length + 1 = d.toNat → rest ≠ [] → CobsRuns rest out →
      CobsRuns (d :: run ++ rest) (run ++ (if d.toNat < 0xFF then 0x00#8 :: out else out))

/-- The numbered registers and what RDREG answers for each, from 10_state.md R27 to R38. -/
def registerMap (s : State) : List (Byte × Nat) :=
  [ (0x00#8, 0x11D), (0x01#8, 8), (0x02#8, 0x02), (0x03#8, s.errlog.toNat),
    (0x10#8, s.cg.seed.toNat), (0x11#8, s.cg.state.toNat), (0x12#8, s.cg.count.toNat),
    (0x20#8, s.enc.nfrag.toNat), (0x21#8, s.enc.valid.toNat), (0x22#8, s.enc.k.toNat), (0x23#8, s.enc.m.toNat),
    (0x24#8, s.enc.n.toNat), (0x25#8, s.enc.ngen.toNat), (0x26#8, s.enc.gen.toNat), (0x27#8, s.enc.cpkn.toNat),
    (0x28#8, s.enc.cpkg.toNat), (0x29#8, s.enc.cpkgen.toNat), (0x2A#8, s.enc.cpkm.toNat),
    (0x30#8, s.dec.k.toNat), (0x31#8, s.dec.m.toNat), (0x32#8, s.dec.rows.toNat), (0x33#8, s.dec.resRows.toNat),
    (0x34#8, s.dec.rank.toNat), (0x35#8, s.dec.nsucc.toNat), (0x36#8, s.dec.nred.toNat),
    (0x37#8, s.dec.nsel.toNat),
    (0x40#8, s.cfg.k.toNat), (0x41#8, s.cfg.red.toNat), (0x42#8, s.cfg.seed.toNat), (0x43#8, s.cfg.loaded.toNat),
    (0x48#8, s.sess.active.toNat), (0x49#8, s.sess.k.toNat), (0x4A#8, s.sess.red.toNat),
    (0x4B#8, s.sess.seed.toNat), (0x4C#8, s.sess.curGen.toNat), (0x4D#8, s.sess.curFrag.toNat),
    (0x4E#8, s.sess.genCount.toNat), (0x4F#8, s.sess.totalFrags.toNat), (0x50#8, s.sess.fsize.toNat),
    (0x51#8, s.sess.metaSeq.toNat), (0x52#8, s.sess.metaGen.toNat), (0x53#8, s.sess.metaPre.toNat),
    (0x54#8, s.sess.metaPost.toNat),
    (0x60#8, s.fc.foutn.toNat), (0x61#8, s.fc.rxsync.toNat), (0x62#8, s.fc.rxn.toNat),
    (0x63#8, s.fc.rxpayn.toNat), (0x64#8, s.fc.frCause.toNat) ]

/-- `GenSize(gi)` as R166 writes it. -/
def genSizeOf (s : State) (gi : Nat) : Nat := min s.enc.k.toNat (s.enc.n.toNat - gi * s.enc.k.toNat)

/-- The staged fragments all have one length (R167). -/
def EqualLengths (s : State) : Prop :=
  ∀ f < s.enc.nfrag.toNat, s.enc.srclen.getD f 0#8 = s.enc.srclen.getD 0 0#8

/-- The encoder registers after a successful `Preprocess(k)` (R167). -/
def preprocessed (s : State) (k : Nat) : EncRegs :=
  { s.enc with
    k := BitVec.ofNat 5 k
    n := s.enc.nfrag
    m := if s.enc.nfrag = 0#8 then 0#8 else s.enc.srclen.getD 0 0#8
    ngen := BitVec.ofNat 8 ((s.enc.nfrag.toNat + k - 1) / k)
    gen := 0#8
    valid := true }

/-- Slot `j` of CPK holds a packet of generation `gi` with `g` fragments whose coefficients are the draws after the
generator state `pre` (R168): the vector, the payload, and the two generator states. `s` is the state coded from. -/
structure PacketAt (s t : State) (gi g j : Nat) (pre : Byte) : Prop where
  vector : ∀ i < g, cell t .cpk j i = lfsrStep^[i + 1] pre
  payload : ∀ x < s.enc.m.toNat,
    cell t .cpk j (g + x) =
      xorSumTo g fun i => polyMul (lfsrStep^[i + 1] pre) (cell s .src (gi * s.enc.k.toNat + i) x)
  before : t.enc.cpkpre.getD j 0#8 = pre
  after : t.enc.cpkpost.getD j 0#8 = lfsrStep^[g] pre

/-- The keys of the first `n` slots or rows of width `w` in a two-dimensional memory. -/
def InRows (n w key : Nat) : Prop := ∃ i j, i < n ∧ j < w ∧ key = cellKey i j

/-- Division of bytes by a non-zero byte: multiplication with its inverse, the 254th power (R139, R140). -/
def byteQuot (a b : Byte) : Byte := polyMul a ((polyMul b)^[254] 0x01#8)

/-- The pseudocode of R187 for column `c` on a matrix of `n` rows given entry by entry, with the pivot count. -/
def reduceAt (n c : Nat) (x : (Nat → Nat → Byte) × Nat) : (Nat → Nat → Byte) × Nat :=
  match (List.range n).find? fun i => decide (x.2 ≤ i) && x.1 i c != 0x00#8 with
  | none => x
  | some r =>
    let scaled := fun i j => if i = r ∧ c ≤ j then byteQuot (x.1 i j) (x.1 r c) else x.1 i j
    let swapped := fun i j => scaled (if i = r then x.2 else if i = x.2 then r else i) j
    (fun i j => if i = x.2 then swapped i j else swapped i j ^^^ polyMul (swapped i c) (swapped x.2 j), x.2 + 1)

/-- `Reduce()` of R187 on the accumulated set: the matrix and the number of pivots. -/
def reducedOf (s : State) : (Nat → Nat → Byte) × Nat :=
  (List.range s.dec.k.toNat).foldl (fun x c => reduceAt s.dec.rows.toNat c x) (fun r j => cell s .dpkt r j, 0)

/-- The vector slice of row `r` of DRES is a unit vector with its 1 at `p` (R190). -/
def UnitAt (t : State) (r p : Nat) : Prop :=
  p < t.dec.k.toNat ∧ ∀ i < t.dec.k.toNat, cell t .dres r i = if i = p then 0x01#8 else 0x00#8

/-- The vector slice of row `r` of DRES is all zero (R190). -/
def ZeroVector (t : State) (r : Nat) : Prop := ∀ i < t.dec.k.toNat, cell t .dres r i = 0x00#8

/-- `DSUCC[r]`, `DRED[r]` and `DPIV[r]` of a state. -/
def succAt (t : State) (r : Nat) : Bool := t.dec.succ.getD r false
def redAt (t : State) (r : Nat) : Bool := t.dec.red.getD r false
def pivAt (t : State) (r : Nat) : Nat := (t.dec.piv.getD r 0#4).toNat

/-- The result registers classify the rows of DRES as R190 says, and count the classes. -/
structure Classified (t : State) : Prop where
  succ : ∀ r < t.dec.resRows.toNat, (succAt t r = true ↔ ∃ p, UnitAt t r p)
  piv : ∀ r < t.dec.resRows.toNat, succAt t r = true → UnitAt t r (pivAt t r)
  noPiv : ∀ r < t.dec.resRows.toNat, succAt t r = false → pivAt t r = 0
  red : ∀ r < t.dec.resRows.toNat, (redAt t r = true ↔ ZeroVector t r)
  nsucc : t.dec.nsucc.toNat = (List.range t.dec.resRows.toNat).countP (succAt t)
  nred : t.dec.nred.toNat = (List.range t.dec.resRows.toNat).countP (redAt t)

/-- What DECRUN and DECGEN leave alone: all but the result registers of R34, the response, and the bytes of DRES in
the rows of the result (R187, R190 to R193). -/
structure OnlyResultChanged (s t : State) : Prop where
  others : t.params = s.params ∧ t.epoch = s.epoch ∧ t.inbox = s.inbox ∧ t.errlog = s.errlog ∧ t.cg = s.cg ∧
    t.enc = s.enc ∧ t.cfg = s.cfg ∧ t.sess = s.sess ∧ t.fc = s.fc
  shape : t.dec.k = s.dec.k ∧ t.dec.m = s.dec.m ∧ t.dec.rows = s.dec.rows
  bytes : SameBytesBut .dres (InRows s.dec.rows.toNat (s.dec.k.toNat + s.dec.m.toNat)) s t

/-- The commands of the session unit, opcodes 0x70 to 0x78 (R84). -/
def isSessionCommand (i : Instr) : Bool := i.row.op.toNat / 16 == 7

/-- The commands of the frame codec, opcodes 0x80 to 0x84 (R84). -/
def isCodecCommand (i : Instr) : Bool := i.row.op.toNat / 16 == 8

/-- The state after a command, where it answers one. -/
def after (i : Instr) (s : State) : State :=
  match exec i s with
  | .next t => t
  | _ => s

/-- The state after feeding bytes to RXBYTE in arrival order (R302). -/
def fed (s : State) (bs : List Byte) : State := bs.foldl (fun u b => after (.rxbyte b) u) s

/-- The state after a list of commands, first to last (R67). -/
def afterAll (is : List Instr) (s : State) : State := is.foldl (fun u i => after i u) s

/-- ENCPRE and SFETCH: the commands that code packets (R170, R217). -/
def IsCoding (i : Instr) : Prop := (∃ a b, i = .encpre a b) ∨ i = .sfetch

/-- The command starts the generator's stream from the seed `a`: LFSEED with it, or LFRESET where it is the seed held. -/
def RestartsFrom (a : Byte) (i : Instr) (s : State) : Prop := i = .lfseed a ∨ (i = .lfreset ∧ s.cg.seed = a)

/-- Two units hold the same source to code from: capacities, the captured registers of R171, and the captured fragments'
bytes in SRC. -/
structure SameSource (s t : State) : Prop where
  params : s.params = t.params
  captured : s.enc.valid = t.enc.valid ∧ s.enc.k = t.enc.k ∧ s.enc.m = t.enc.m ∧ s.enc.n = t.enc.n
  bytes : ∀ f < s.enc.n.toNat, ∀ x < s.enc.m.toNat, cell s .src f x = cell t .src f x

/-- The valid packets in CPK, their generator states and their description are the same (R32, R171). -/
structure SamePackets (s t : State) : Prop where
  shape : s.enc.cpkn = t.enc.cpkn ∧ s.enc.cpkg = t.enc.cpkg ∧ s.enc.cpkm = t.enc.cpkm ∧ s.enc.cpkgen = t.enc.cpkgen
  states : ∀ j < s.enc.cpkn.toNat, s.enc.cpkpre[j]? = t.enc.cpkpre[j]? ∧ s.enc.cpkpost[j]? = t.enc.cpkpost[j]?
  bytes : ∀ j < s.enc.cpkn.toNat, ∀ i < s.enc.cpkg.toNat + s.enc.cpkm.toNat, cell s .cpk j i = cell t .cpk j i

/-- The command's opcode is one of the given ones (R84). -/
def HasOpcode (ops : List Byte) (i : Instr) : Prop := i.row.op ∈ ops

/-- The state after `n` times LFGEN. -/
def drawn (s : State) (n : Nat) : State := (after .lfgen)^[n] s

/-- `n` bytes of a one-dimensional memory from index 0. -/
def bytesOf (s : State) (sp : Space) (n : Nat) : List Byte := (List.range n).map fun i => s.readByte sp i

end Sys2Proof.Certificates

open Sys2Proof.Certificates

/-! ### Encoding -/

/-- Decoding undoes encoding, with every operand at every value (R81, R82, R84). -/
def Obligations.DecodeOfEncodeIsTheCommand : Prop := ∀ i : Instr, decode (encode i) = .ok i

/-- Encoding undoes decoding: a legal word has one meaning and no bit of it is dropped (R81, R82, R84). -/
def Obligations.EncodeOfDecodeIsTheWord : Prop := ∀ (cw : CommandWord) (i : Instr), decode cw = .ok i → encode i = cw

/-- R85 and R82: a word is a command exactly when its opcode is in the table and every field that the format
reserves is zero, which is the same as matching a row's mask and pattern. -/
def Obligations.LegalWordsAreTheTableRows : Prop :=
  ∀ cw : CommandWord,
    ((∃ i, decode cw = .ok i) ↔
      ∃ r ∈ opRows, fieldOp cw = r.op ∧ r.format.admits (fieldA cw, fieldB cw, fieldC cw) = true) ∧
    ((∃ i, decode cw = .ok i) ↔ ∃ r ∈ opRows, cw &&& r.format.mask = r.pattern)

/-- Words written out from the spec's encodings, one for each unit, decode to their commands (R84). -/
def Obligations.SampleWordsDecode : Prop :=
  decode 0x00000000#32 = .ok .nop ∧ decode 0x01000000#32 = .ok (.rdreg 0x00#8) ∧
    decode 0x120200FF#32 = .ok (.frwr 0x02#8 0x00#8 0xFF#8) ∧ decode 0x1E010100#32 = .ok (.ford 0x01#8 0x01#8) ∧
    decode 0x3253CA00#32 = .ok (.gfmul 0x53#8 0xCA#8) ∧ decode 0x40120000#32 = .ok (.lfseed 0x12#8) ∧
    decode 0x51000100#32 = .ok (.encpre 0x00#8 0x01#8) ∧ decode 0x62000000#32 = .ok .decgen ∧
    decode 0x70010100#32 = .ok (.cfgset 0x01#8 0x01#8) ∧ decode 0x84FF0000#32 = .ok (.rxbyte 0xFF#8)

/-! ### The step -/

/-- A step at a presented word that decodes to a command is exactly that command's effect, with the word taken from
the host's events and nothing else added: there is no program counter (R21, R80). -/
def Obligations.StepRunsTheDecodedCommand : Prop :=
  ∀ (s : State) (cw : CommandWord) (rest : List HostEvent) (i : Instr),
    s.inbox = .command cw :: rest → decode cw = .ok i → step s = exec i { s with inbox := rest }

/-- R85: a word that matches no row changes nothing but ERRLOG bit 5 and answers IllegalCommand (5) with value 0. -/
def Obligations.IllegalWordSetsOnlyErrlogBitFive : Prop :=
  ∀ (s : State) (cw : CommandWord) (rest : List HostEvent),
    s.inbox = .command cw :: rest → (∀ r ∈ opRows, cw &&& r.format.mask ≠ r.pattern) →
      step s = .next { s with inbox := rest, errlog := s.errlog ||| 0b100000#6, response := some 0x05000000#32 }

/-- With nothing presented the unit is idle and unchanged (R284); asserting reset gives the reset state of the same
instance (R290). That the host's later events are kept and the reset counter advances is the model's choice
(log 9), and so is the 0 in the register arrays that R291 leaves unspecified (log 7). -/
def Obligations.IdleAndResetSteps : Prop :=
  ∀ (s : State) (rest : List HostEvent),
    (s.inbox = [] → step s = .next s) ∧
    (s.inbox = .reset :: rest → step s = .next { State.resetOf s.params (s.epoch + 1) with inbox := rest })

/-- R10, R80: every command and every presented word, all 2^32, completes with a new state and one response word;
no step faults or is refused. -/
def Obligations.EveryCommandCompletes : Prop :=
  (∀ (i : Instr) (s : State), ∃ t rw, exec i s = .next t ∧ t.response = some rw) ∧
    (∀ (s : State) (cw : CommandWord) (rest : List HostEvent), s.inbox = .command cw :: rest →
      ∃ t rw, step s = .next t ∧ t.response = some rw ∧ t.inbox = rest) ∧
    ∀ s : State, ∃ t, step s = .next t

/-- R83, R270, R28: a response is a status 0..5, a zero byte and a value that is 0 unless the status is 0; status `st`
above 0 sets ERRLOG bit `st` and no other, status 0 sets none. -/
def Obligations.ResponsesCarryStatusAndErrlogBit : Prop :=
  ∀ (i : Instr) (s t : State), exec i s = .next t →
    ∃ st val, st ≤ 5 ∧ val < 2 ^ 16 ∧ t.response = some (BitVec.ofNat 8 st ++ 0x00#8 ++ BitVec.ofNat 16 val) ∧
      (st ≠ 0 → val = 0) ∧ t.errlog = if st = 0 then s.errlog else s.errlog ||| (1#6 <<< st)

/-- R272: a command that answers a status other than OK changes nothing but its ERRLOG bit, and in two cases what its
own rule says: COBSDEC sets FOUTN to 0; RXBYTE discards the partial frame and sets FR_CAUSE. That the byte of RXBUF at
the old RXN may change, because R250 stores the last byte before it judges the frame, is log 19. -/
def Obligations.FailingCommandsChangeOnlyErrlog : Prop :=
  ∀ (i : Instr) (s t : State) (rw : ResponseWord),
    exec i s = .next t → t.response = some rw → responseStatus rw ≠ 0 →
      ((∀ a, i ≠ .cobsdec a) → (∀ a, i ≠ .rxbyte a) → t = errAfter s (responseStatus rw)) ∧
      ((∃ a, i = .cobsdec a) → t = errAfter { s with fc := { s.fc with foutn := 0#9 } } 4) ∧
      ((∃ a, i = .rxbyte a) →
        SameUnits { s with fc := { s.fc with rxsync := false, rxn := 0#9, frCause := t.fc.frCause } } t ∧
        t.fc.frCause ≠ 0#3 ∧ t.errlog = s.errlog ||| 0b010000#6 ∧ rw = 0x04000000#32 ∧
        SameBytesBut .rxbuf (fun key => key = s.fc.rxn.toNat) s t)

/-! ### Invariants -/

/-- R41, R291: the reset state of every instance whose capacities are as R7 constrains them meets the invariants, and so
does the reference configuration. The invariants are those of R41, with ERRLOG bit 0 (R28), the ranges and array lengths
of R30 to R38, that no result row below DRES_ROWS is both successful and redundant (R190), an absent session at 0 (R210),
and memories inside their shapes (R64) in the model's canonical form (logs 5 and 6). -/
def Obligations.ResetMeetsTheInvariants : Prop :=
  (∀ (p : Params) (epoch : Nat), p.Ok → (State.resetOf p epoch).Inv) ∧ State.reset.Inv

/-- R41, with the parts of the invariants that rest on R28, R30 to R38, R64, R190 and R210 and on logs 5 and 6: every step
from a state that meets the invariants gives one that does, reset and illegal words included. No part rests on a value
that R291 leaves unspecified. -/
def Obligations.StepKeepsTheInvariants : Prop := ∀ s t : State, s.Inv → step s = .next t → t.Inv

/-- R41, with the parts of the invariants that rest on R28, R30 to R38, R64, R190 and R210 and on logs 5 and 6: they hold
in every reachable state, whatever the host presents and when. This is about runs: it follows from the reset state and
the step by induction over a run. That a run keeps its capacities is R7 (log 3). -/
def Obligations.ReachableStatesMeetTheInvariants : Prop :=
  ∀ (p : Params) (s : State), p.Ok → Reachable p s → s.Inv ∧ s.params = p

/-- R291: after reset RDREG answers the three constants, 0 for the other 45 numbered registers, and every SRCLEN is 0. -/
def Obligations.ResetRegisterValues : Prop :=
  ∀ (p : Params) (epoch : Nat) (a : Byte) (v : Nat),
    ((a, v) ∈ registerMap (State.resetOf p epoch) →
      v = (if a = 0x00#8 then 0x11D else if a = 0x01#8 then 8 else if a = 0x02#8 then 2 else 0) ∧
      exec (.rdreg a) (State.resetOf p epoch) = .next (okAfter (State.resetOf p epoch) v)) ∧
    (registerMap (State.resetOf p epoch)).length = 48 ∧
    ∀ f, f < p.fMax → (State.resetOf p epoch).enc.srclen[f]? = some 0#8

/-! ### System and access commands -/

/-- R101, R102, R23: NOP answers 0 and changes nothing; RDREG answers the value of each of the 48 registers and
changes nothing; an unassigned number is ValidationError. -/
def Obligations.NopAndRdregCommands : Prop :=
  ∀ (a : Byte) (s : State),
    HasWord .nop 0x00#8 0#8 0#8 0#8 ∧ HasWord (.rdreg a) 0x01#8 a 0#8 0#8 ∧
    exec .nop s = .next (okAfter s 0) ∧
    (registerMap s).length = 48 ∧
    (∀ v, (a, v) ∈ registerMap s → exec (.rdreg a) s = .next (okAfter s v)) ∧
    ((∀ v, (a, v) ∉ registerMap s) → exec (.rdreg a) s = .next (errAfter s 1))

/-- R103, R104, R109: FRCNT writes NFRAG alone, FRLEN one SRCLEN alone, DPCNT DROWS alone, each for operands in range;
others are ValidationError. -/
def Obligations.CountAndLengthCommands : Prop :=
  ∀ (a b : Byte) (s : State),
    HasWord (.dpcnt a) 0x16#8 a 0#8 0#8 ∧
    (a.toNat ≤ s.params.pMax → exec (.dpcnt a) s = .next (okAfter { s with dec := { s.dec with rows := a } } 0)) ∧
    (s.params.pMax < a.toNat → exec (.dpcnt a) s = .next (errAfter s 1)) ∧
    HasWord (.frcnt a) 0x10#8 a 0#8 0#8 ∧ HasWord (.frlen a b) 0x11#8 a b 0#8 ∧
    (a.toNat ≤ s.params.fMax →
      exec (.frcnt a) s = .next (okAfter { s with enc := { s.enc with nfrag := a } } 0)) ∧
    (s.params.fMax < a.toNat → exec (.frcnt a) s = .next (errAfter s 1)) ∧
    (a.toNat < s.params.fMax → b.toNat ≤ s.params.mMax →
      exec (.frlen a b) s =
        .next (okAfter { s with enc := { s.enc with srclen := s.enc.srclen.set a.toNat b } } 0)) ∧
    (s.params.fMax ≤ a.toNat ∨ s.params.mMax < b.toNat → exec (.frlen a b) s = .next (errAfter s 1))

/-- R105, R110, R116: FRWR, DPWR and FIWR complete for indices in range; the one byte named by the operands reads as
the value, every other byte of every memory and every register but the response is unchanged. Out of range they
are ValidationError and write nothing. -/
def Obligations.MemoryWritesStoreOneByte : Prop :=
  ∀ (a b c : Byte) (s : State),
    HasWord (.frwr a b c) 0x12#8 a b c ∧ HasWord (.dpwr a b c) 0x17#8 a b c ∧ HasWord (.fiwr a b) 0x1C#8 a b 0#8 ∧
    (a.toNat < s.params.fMax → b.toNat < s.params.mMax →
      ∃ t, exec (.frwr a b c) s = .next t ∧ t.response = some (okWord 0) ∧ t.errlog = s.errlog ∧ SameUnits s t ∧
        t.readByte .src (cellKey a.toNat b.toNat) = c ∧
        SameBytesBut .src (fun key => key = cellKey a.toNat b.toNat) s t) ∧
    (a.toNat < s.params.pMax → b.toNat < s.dec.k.toNat + s.dec.m.toNat →
      ∃ t, exec (.dpwr a b c) s = .next t ∧ t.response = some (okWord 0) ∧ t.errlog = s.errlog ∧ SameUnits s t ∧
        t.readByte .dpkt (cellKey a.toNat b.toNat) = c ∧
        SameBytesBut .dpkt (fun key => key = cellKey a.toNat b.toNat) s t) ∧
    (a.toNat < 255 →
      ∃ t, exec (.fiwr a b) s = .next t ∧ t.response = some (okWord 0) ∧ t.errlog = s.errlog ∧ SameUnits s t ∧
        t.readByte .fin a.toNat = b ∧ SameBytesBut .fin (fun key => key = a.toNat) s t) ∧
    (s.params.fMax ≤ a.toNat ∨ s.params.mMax ≤ b.toNat → exec (.frwr a b c) s = .next (errAfter s 1)) ∧
    (s.params.pMax ≤ a.toNat ∨ s.dec.k.toNat + s.dec.m.toNat ≤ b.toNat →
      exec (.dpwr a b c) s = .next (errAfter s 1)) ∧
    (a = 0xFF#8 → exec (.fiwr a b) s = .next (errAfter s 1))

/-- R106, R113, R117, R108, R114, R115, R118: each read command completes for an index in range with the byte as its
value, and changes nothing but the response; out of range it is ValidationError. -/
def Obligations.MemoryReadsAnswerTheByte : Prop :=
  ∀ (a b : Byte) (s : State),
    (HasWord (.frrd a b) 0x13#8 a b 0#8 ∧ HasWord (.cprd a b) 0x14#8 a b 0#8 ∧ HasWord (.dprd a b) 0x18#8 a b 0#8 ∧
      HasWord (.drrd a b) 0x19#8 a b 0#8 ∧ HasWord (.fird a) 0x1D#8 a 0#8 0#8 ∧ HasWord (.ford a b) 0x1E#8 a b 0#8 ∧
      HasWord (.rprd a) 0x1F#8 a 0#8 0#8) ∧
    (a.toNat < s.params.fMax → b.toNat < s.params.mMax →
      exec (.frrd a b) s = .next (okAfter s (cell s .src a.toNat b.toNat).toNat)) ∧
    (a.toNat < s.params.pMax → b.toNat < s.dec.k.toNat + s.dec.m.toNat →
      exec (.dprd a b) s = .next (okAfter s (cell s .dpkt a.toNat b.toNat).toNat)) ∧
    (a.toNat < 255 → exec (.fird a) s = .next (okAfter s (s.readByte .fin a.toNat).toNat)) ∧
    (a.toNat < s.enc.cpkn.toNat → b.toNat < s.enc.cpkg.toNat + s.enc.cpkm.toNat →
      exec (.cprd a b) s = .next (okAfter s (cell s .cpk a.toNat b.toNat).toNat)) ∧
    (a.toNat < s.dec.resRows.toNat → b.toNat < s.dec.k.toNat + s.dec.m.toNat →
      exec (.drrd a b) s = .next (okAfter s (cell s .dres a.toNat b.toNat).toNat)) ∧
    (a.toNat * 256 + b.toNat < s.fc.foutn.toNat →
      exec (.ford a b) s = .next (okAfter s (s.readByte .fout (a.toNat * 256 + b.toNat)).toNat)) ∧
    (a.toNat < s.fc.rxpayn.toNat → exec (.rprd a) s = .next (okAfter s (s.readByte .rxpay a.toNat).toNat)) ∧
    (s.params.fMax ≤ a.toNat ∨ s.params.mMax ≤ b.toNat → exec (.frrd a b) s = .next (errAfter s 1)) ∧
    (s.params.pMax ≤ a.toNat ∨ s.dec.k.toNat + s.dec.m.toNat ≤ b.toNat →
      exec (.dprd a b) s = .next (errAfter s 1)) ∧
    (a = 0xFF#8 → exec (.fird a) s = .next (errAfter s 1)) ∧
    (s.enc.cpkn.toNat ≤ a.toNat ∨ s.enc.cpkg.toNat + s.enc.cpkm.toNat ≤ b.toNat →
      exec (.cprd a b) s = .next (errAfter s 1)) ∧
    (s.dec.resRows.toNat ≤ a.toNat ∨ s.dec.k.toNat + s.dec.m.toNat ≤ b.toNat →
      exec (.drrd a b) s = .next (errAfter s 1)) ∧
    (s.fc.foutn.toNat ≤ a.toNat * 256 + b.toNat → exec (.ford a b) s = .next (errAfter s 1)) ∧
    (s.fc.rxpayn.toNat ≤ a.toNat → exec (.rprd a) s = .next (errAfter s 1))

/-- R107, R111, R112: CPMD answers a packet's generator state before or after, DRFL the flags of a result row, DSRD an
entry of the innovative-row list; an index or selector out of range is ValidationError. -/
def Obligations.PacketAndRowReadsAnswerTheRegister : Prop :=
  ∀ (a b : Byte) (s : State),
    HasWord (.cpmd a b) 0x15#8 a b 0#8 ∧ HasWord (.drfl a) 0x1A#8 a 0#8 0#8 ∧ HasWord (.dsrd a) 0x1B#8 a 0#8 0#8 ∧
    (a.toNat < s.enc.cpkn.toNat →
      exec (.cpmd a 0x00#8) s = .next (okAfter s (s.enc.cpkpre.getD a.toNat 0#8).toNat) ∧
      exec (.cpmd a 0x01#8) s = .next (okAfter s (s.enc.cpkpost.getD a.toNat 0#8).toNat)) ∧
    (s.enc.cpkn.toNat ≤ a.toNat ∨ 1 < b.toNat → exec (.cpmd a b) s = .next (errAfter s 1)) ∧
    (a.toNat < s.dec.resRows.toNat →
      exec (.drfl a) s =
        .next (okAfter s (pivAt s a.toNat * 256 + (redAt s a.toNat).toNat * 2 + (succAt s a.toNat).toNat))) ∧
    (s.dec.resRows.toNat ≤ a.toNat → exec (.drfl a) s = .next (errAfter s 1)) ∧
    (a.toNat < s.dec.nsel.toNat → exec (.dsrd a) s = .next (okAfter s (s.dec.sel.getD a.toNat 0#8).toNat)) ∧
    (s.dec.nsel.toNat ≤ a.toNat → exec (.dsrd a) s = .next (errAfter s 1))

/-- R100: an access command that answers an error is ValidationError, makes no access and changes nothing but ERRLOG
bit 1; one that succeeds writes at most the one register, the one entry of SRCLEN or the one byte that its rule names,
with its operand as the value, and none affects ENC_VALID, the decoder result, the generator, the session or the
reassembler. -/
def Obligations.AccessCommandsTouchOnlyTheirOwn : Prop :=
  ∀ (i : Instr) (s t : State), i.row.op.toNat < 0x20 → exec i s = .next t →
    (t = errAfter s 1 ∧ i ≠ .nop) ∨
      (t.errlog = s.errlog ∧
        SameUnits
          { s with
            enc := { s.enc with nfrag := t.enc.nfrag, srclen := t.enc.srclen }
            dec := { s.dec with rows := t.dec.rows } } t ∧
        (t.enc.nfrag = s.enc.nfrag ∨ i = .frcnt t.enc.nfrag) ∧
        (t.enc.srclen = s.enc.srclen ∨ ∃ a b, i = .frlen a b ∧ t.enc.srclen = s.enc.srclen.set a.toNat b) ∧
        (t.dec.rows = s.dec.rows ∨ i = .dpcnt t.dec.rows) ∧
        (t.mem = s.mem ∨
          (∃ a b c, i = .frwr a b c ∧ t.readByte .src (cellKey a.toNat b.toNat) = c ∧
            SameBytesBut .src (fun key => key = cellKey a.toNat b.toNat) s t) ∨
          (∃ a b c, i = .dpwr a b c ∧ t.readByte .dpkt (cellKey a.toNat b.toNat) = c ∧
            SameBytesBut .dpkt (fun key => key = cellKey a.toNat b.toNat) s t) ∨
          ∃ a b, i = .fiwr a b ∧ t.readByte .fin a.toNat = b ∧
            SameBytesBut .fin (fun key => key = a.toNat) s t))

/-- R60, R63: a byte written by FRWR, DPWR or FIWR is what the matching read command then answers, and writing it
again changes nothing. -/
def Obligations.ReadAfterWriteAnswersTheByte : Prop :=
  ∀ (a b c : Byte) (s t u : State),
    (exec (.frwr a b c) s = .next t → t.response = some (okWord 0) →
      exec (.frrd a b) t = .next (okAfter t c.toNat) ∧ exec (.frwr a b c) t = .next t) ∧
    (exec (.dpwr a b c) s = .next t → t.response = some (okWord 0) →
      exec (.dprd a b) t = .next (okAfter t c.toNat) ∧ exec (.dpwr a b c) t = .next t) ∧
    (exec (.fiwr a b) s = .next u → u.response = some (okWord 0) →
      exec (.fird a) u = .next (okAfter u b.toNat) ∧ exec (.fiwr a b) u = .next u)

/-! ### FA -/

/-- R135: `mul` by the tables is the polynomial product modulo 0x11D for every pair, and `add`, `mul` and `div` obey the
laws of a field. -/
def Obligations.FieldLaws : Prop :=
  ∀ x y z : GF,
    (gfMul x y).byte = polyMul x.byte y.byte ∧
    gfAdd x y = gfAdd y x ∧ gfAdd (gfAdd x y) z = gfAdd x (gfAdd y z) ∧ gfAdd x GF.zero = x ∧
    gfAdd x x = GF.zero ∧ gfSub x y = gfAdd x y ∧
    gfMul x y = gfMul y x ∧ gfMul (gfMul x y) z = gfMul x (gfMul y z) ∧ gfMul x GF.one = x ∧
    gfMul x (gfAdd y z) = gfAdd (gfMul x y) (gfMul x z) ∧
    (y ≠ GF.zero → gfDiv (gfMul x y) y = some x ∧
      ∃ w, gfDiv GF.one y = some w ∧ gfMul y w = GF.one ∧ gfDiv x y = some (gfMul x w)) ∧
    gfDiv x GF.zero = none

/-- R24, R25: the tables are what the building loop records: ALOG from 1 by multiplication with x, reduced by 0x11D,
back to 1 after 255 multiplications; LOG its inverse. -/
def Obligations.AntilogTableIsTheBuildingLoop : Prop :=
  alog 0 = ⟨0x01#8⟩ ∧
    (∀ i < 255, alog ((i + 1) % 255) =
      ⟨if (alog i).byte.msb then ((alog i).byte <<< 1) ^^^ 0x1D#8 else (alog i).byte <<< 1⟩) ∧
    (∀ i < 255, gfLog (alog i) = i)

/-- R136, R137, R138: GFADD and GFSUB answer the XOR, GFMUL the field product, and change nothing but the response. -/
def Obligations.GfAddSubMulAnswerTheField : Prop :=
  ∀ (a b : Byte) (s : State),
    HasWord (.gfadd a b) 0x30#8 a b 0#8 ∧ HasWord (.gfsub a b) 0x31#8 a b 0#8 ∧ HasWord (.gfmul a b) 0x32#8 a b 0#8 ∧
    exec (.gfadd a b) s = .next (okAfter s (a ^^^ b).toNat) ∧
    exec (.gfsub a b) s = .next (okAfter s (a ^^^ b).toNat) ∧
    exec (.gfmul a b) s = .next (okAfter s (polyMul a b).toNat)

/-- R139: GFDIV by a non-zero divisor answers the quotient, the one byte whose product with the divisor is the
dividend; by zero it answers DivisionByZero whatever the dividend is, and changes nothing but ERRLOG bit 3. -/
def Obligations.GfdivAnswersTheQuotient : Prop :=
  ∀ (a b : Byte) (s : State),
    HasWord (.gfdiv a b) 0x33#8 a b 0#8 ∧
    (b ≠ 0#8 → ∃ q, exec (.gfdiv a b) s = .next (okAfter s q.toNat) ∧ ∀ x, polyMul x b = a ↔ x = q) ∧
    exec (.gfdiv a 0#8) s = .next (errAfter s 3)

/-- R134, R140: GFPOW answers the product of `b` factors `a`, from the one element; so the exponent 0 gives 1 for every
base, a zero base gives 0 for every other exponent, and 254 and 255 give the inverse and 1. -/
def Obligations.GfpowAnswersThePower : Prop :=
  ∀ (a b : Byte) (s : State),
    HasWord (.gfpow a b) 0x34#8 a b 0#8 ∧
    exec (.gfpow a b) s = .next (okAfter s ((polyMul a)^[b.toNat] 0x01#8).toNat) ∧
    exec (.gfpow a 0#8) s = .next (okAfter s 1) ∧
    (b ≠ 0#8 → exec (.gfpow 0#8 b) s = .next (okAfter s 0)) ∧
    (a ≠ 0#8 → exec (.gfpow a 255#8) s = .next (okAfter s 1) ∧
      ∃ v, exec (.gfpow a 254#8) s = .next (okAfter s v.toNat) ∧ polyMul a v = 0x01#8)

/-! ### CG -/

/-- R150: bit 7 after a step is the XOR of bits 0, 1, 2 and 7 before it, and every other bit is the one above it. -/
def Obligations.LfsrStepShiftsInTheFeedback : Prop :=
  ∀ v : Byte,
    (lfsrStep v).getLsbD 7 = (v.getLsbD 0 ^^ v.getLsbD 1 ^^ v.getLsbD 2 ^^ v.getLsbD 7) ∧
    ∀ i < 7, (lfsrStep v).getLsbD i = v.getLsbD (i + 1)

/-- R156: the step is a bijection that fixes 0; the other 255 bytes are one cycle: from a non-zero seed the 255th step
returns the seed, no earlier one does, and no output is 0. -/
def Obligations.LfsrHasPeriod255 : Prop :=
  Function.Bijective lfsrStep ∧ lfsrStep 0#8 = 0#8 ∧
    ∀ v : Byte, v ≠ 0#8 → lfsrStep^[255] v = v ∧
      ∀ n, 0 < n → n < 255 → lfsrStep^[n] v ≠ v ∧ lfsrStep^[n] v ≠ 0#8

/-- R152, R153, R154: LFSEED loads the seed and starts the stream from it, LFRESET restarts it; nothing else changes. -/
def Obligations.LfseedAndLfresetStartTheStream : Prop :=
  ∀ (a : Byte) (s : State),
    HasWord (.lfseed a) 0x40#8 a 0#8 0#8 ∧ HasWord .lfreset 0x41#8 0#8 0#8 0#8 ∧
    exec (.lfseed a) s = .next (okAfter { s with cg := { seed := a, state := a, count := 0#8 } } 0) ∧
    exec .lfreset s = .next (okAfter { s with cg := { s.cg with state := s.cg.seed, count := 0#8 } } 0)

/-- R151, R155: LFGEN with a count below 255 steps the register, counts, and answers the new state; at 255 it answers
CycleExhausted and changes nothing but ERRLOG bit 2. -/
def Obligations.LfgenDrawsOneCoefficient : Prop :=
  ∀ s : State,
    HasWord .lfgen 0x42#8 0#8 0#8 0#8 ∧
    (s.cg.count.toNat < 255 →
      exec .lfgen s =
        .next (okAfter
          { s with cg := { s.cg with state := lfsrStep s.cg.state, count := s.cg.count + 1#8 } }
          (lfsrStep s.cg.state).toNat)) ∧
    (s.cg.count = 255#8 → exec .lfgen s = .next (errAfter s 2))

/-- R151: exactly 255 draws succeed after a reset of the generator (LFSEED or LFRESET), giving the stream of the seed; the
256th and every later one fails with CycleExhausted and changes nothing but ERRLOG bit 2. -/
def Obligations.Exactly255DrawsSucceed : Prop :=
  ∀ (a : Byte) (s t : State), exec (.lfseed a) s = .next t ∨ (exec .lfreset s = .next t ∧ s.cg.seed = a) →
    (∀ n ≤ 255, (drawn t n).cg = { seed := a, state := lfsrStep^[n] a, count := BitVec.ofNat 8 n } ∧
      (0 < n → (drawn t n).response = some (okWord (lfsrStep^[n] a).toNat))) ∧
    ∀ n > 255, drawn t n = errAfter (drawn t 255) 2

/-! ### ENC -/

/-- R167, R169: ENCPREP with a generation size 1..16 over fragments of one length captures the staged list, puts the
pointer back to 0 and answers the number of generations, changing nothing else; otherwise it is ValidationError. -/
def Obligations.EncprepCapturesTheStagedList : Prop :=
  ∀ (a : Byte) (s : State),
    HasWord (.encprep a) 0x50#8 a 0#8 0#8 ∧
    (1 ≤ a.toNat → a.toNat ≤ 16 → EqualLengths s →
      exec (.encprep a) s =
        .next (okAfter { s with enc := preprocessed s a.toNat } ((s.enc.nfrag.toNat + a.toNat - 1) / a.toNat)) ∧
      (preprocessed s a.toNat).ngen.toNat = (s.enc.nfrag.toNat + a.toNat - 1) / a.toNat) ∧
    (a.toNat = 0 ∨ 16 < a.toNat ∨ ¬ EqualLengths s → exec (.encprep a) s = .next (errAfter s 1))

/-- R166, R168, R170: ENCPRE under its preconditions codes `g + b` packets of generation `a` into slots 0, 1, …: packet
`j` draws its `g` coefficients after the `j·g` draws of the packets before it, they are its vector, and its payload
is their weighted sum of the generation's fragments. The generator moves by the draws alone, CPK's bookkeeping
describes the packets, and nothing else changes, no byte outside those packets included. Not preprocessed, out of the
generations or over the packet store it is ValidationError; otherwise, over the generator's cycle, it is CycleExhausted;
then nothing is drawn and no packet is written. That CPKPRE and CPKPOST beyond the packets are kept is also log 11. -/
def Obligations.EncpreCodesTheGeneration : Prop :=
  ∀ (a b : Byte) (s : State),
    HasWord (.encpre a b) 0x51#8 a b 0#8 ∧
    (s.Inv → s.enc.valid = true → a.toNat < s.enc.ngen.toNat →
      genSizeOf s a.toNat + b.toNat ≤ s.params.cMax →
      s.cg.count.toNat + (genSizeOf s a.toNat + b.toNat) * genSizeOf s a.toNat ≤ 255 →
      ∃ t, exec (.encpre a b) s = .next t ∧
        t.response = some (okWord (genSizeOf s a.toNat + b.toNat)) ∧
        (∀ j < genSizeOf s a.toNat + b.toNat,
          PacketAt s t a.toNat (genSizeOf s a.toNat) j (lfsrStep^[j * genSizeOf s a.toNat] s.cg.state)) ∧
        (∀ j ≥ genSizeOf s a.toNat + b.toNat,
          t.enc.cpkpre[j]? = s.enc.cpkpre[j]? ∧ t.enc.cpkpost[j]? = s.enc.cpkpost[j]?) ∧
        t.errlog = s.errlog ∧
        SameUnits
          { s with
            cg :=
              { s.cg with
                state := lfsrStep^[(genSizeOf s a.toNat + b.toNat) * genSizeOf s a.toNat] s.cg.state
                count := BitVec.ofNat 8
                  (s.cg.count.toNat + (genSizeOf s a.toNat + b.toNat) * genSizeOf s a.toNat) }
            enc :=
              { s.enc with
                cpkn := BitVec.ofNat 8 (genSizeOf s a.toNat + b.toNat)
                cpkg := BitVec.ofNat 5 (genSizeOf s a.toNat)
                cpkm := s.enc.m
                cpkgen := a
                cpkpre := t.enc.cpkpre
                cpkpost := t.enc.cpkpost } } t ∧
        SameBytesBut .cpk
          (InRows (genSizeOf s a.toNat + b.toNat) (genSizeOf s a.toNat + s.enc.m.toNat)) s t) ∧
    (s.enc.valid = false ∨ s.enc.ngen.toNat ≤ a.toNat ∨ s.params.cMax < genSizeOf s a.toNat + b.toNat →
      exec (.encpre a b) s = .next (errAfter s 1)) ∧
    (s.enc.valid = true → a.toNat < s.enc.ngen.toNat → genSizeOf s a.toNat + b.toNat ≤ s.params.cMax →
      255 < s.cg.count.toNat + (genSizeOf s a.toNat + b.toNat) * genSizeOf s a.toNat →
      exec (.encpre a b) s = .next (errAfter s 2))

/-- R171: from the same generator state and count, or after the generator is restarted from the same seed (by LFRESET or
by LFSEED), the same sequence of ENCPRE and SFETCH commands over the same fragment bytes and captured registers answers
alike, moves the generator alike and leaves the same packets and generator states after every command that succeeds,
whatever else two units hold. A sequence with an SFETCH in it needs the same session and the same pointer too, which R217
reads. -/
def Obligations.EncodingIsReproducible : Prop :=
  ∀ (is : List Instr) (s₁ s₂ u₁ u₂ : State),
    s₁.Inv → s₂.Inv → SameSource s₁ s₂ → (∀ i ∈ is, IsCoding i) → is ≠ [] →
    (.sfetch ∈ is → s₁.sess = s₂.sess ∧ s₁.enc.gen = s₂.enc.gen) →
    ((u₁ = s₁ ∧ u₂ = s₂ ∧ s₁.cg.state = s₂.cg.state ∧ s₁.cg.count = s₂.cg.count) ∨
      ∃ a r₁ r₂, RestartsFrom a r₁ s₁ ∧ RestartsFrom a r₂ s₂ ∧ exec r₁ s₁ = .next u₁ ∧ exec r₂ s₂ = .next u₂) →
      (afterAll is u₁).response = (afterAll is u₂).response ∧
      (afterAll is u₁).cg.state = (afterAll is u₂).cg.state ∧
      (afterAll is u₁).cg.count = (afterAll is u₂).cg.count ∧
      ((∃ v, (afterAll is u₁).response = some (okWord v)) → SamePackets (afterAll is u₁) (afterAll is u₂))

/-! ### DEC -/

/-- R186: DECCFG with k in 1..16 and m up to M_MAX sets the shape and empties the accumulated set and the last result,
changing nothing else, no byte of DPKT or DRES; other operands are ValidationError. That the result's register arrays,
whose bounds become 0, keep their entries is also log 11. -/
def Obligations.DeccfgSetsTheShape : Prop :=
  ∀ (a b : Byte) (s : State),
    HasWord (.deccfg a b) 0x60#8 a b 0#8 ∧
    (1 ≤ a.toNat → a.toNat ≤ 16 → b.toNat ≤ s.params.mMax →
      exec (.deccfg a b) s =
        .next (okAfter
          { s with
            dec :=
              { s.dec with
                k := a.setWidth 5, m := b, rows := 0#8, resRows := 0#8, rank := 0#5, nsucc := 0#8, nred := 0#8,
                nsel := 0#8 } } 0) ∧
      (a.setWidth 5).toNat = a.toNat) ∧
    (a = 0#8 ∨ 16 < a.toNat ∨ s.params.mMax < b.toNat → exec (.deccfg a b) s = .next (errAfter s 1))

/-- R187, R190, R191: DECRUN of a configured decoder completes: the result has one row for each accumulated packet, the
rows and the rank are those of the Gauss-Jordan reduction, each row is classified by its vector slice, the answer is the
number of successful rows, the innovative-row list is empty, and nothing but the result changes; DPKT is not written.
Not configured, it is ValidationError. That DSEL, whose length becomes 0, keeps its entries is also log 11. -/
def Obligations.DecrunReducesAndClassifies : Prop :=
  ∀ s : State,
    HasWord .decrun 0x61#8 0#8 0#8 0#8 ∧
    (s.Inv → s.dec.k ≠ 0#5 →
      ∃ t, exec .decrun s = .next t ∧ t.response = some (okWord t.dec.nsucc.toNat) ∧ t.dec.resRows = s.dec.rows ∧
        (∀ r < s.dec.rows.toNat, ∀ j < s.dec.k.toNat + s.dec.m.toNat, cell t .dres r j = (reducedOf s).1 r j) ∧
        t.dec.rank.toNat = (reducedOf s).2 ∧
        Classified t ∧ t.dec.nsel = 0#8 ∧ t.dec.sel = s.dec.sel ∧ OnlyResultChanged s t) ∧
    (s.dec.k = 0#5 → exec .decrun s = .next (errAfter s 1))

/-- R192: DECGEN completes as DECRUN does, with the same rows, classes and rank, and lists the successful rows in
ascending order; the answer is their number. Not configured, it is ValidationError. That DSUCC, DRED and DPIV agree with
DECRUN's also at and beyond DRES_ROWS, where both keep the old entries, is log 11. -/
def Obligations.DecgenListsTheInnovativeRows : Prop :=
  ∀ s : State,
    HasWord .decgen 0x62#8 0#8 0#8 0#8 ∧
    (s.Inv → s.dec.k ≠ 0#5 →
      ∃ t u, exec .decgen s = .next t ∧ exec .decrun s = .next u ∧ SameBytes u t ∧
        t.dec = { u.dec with nsel := t.dec.nsel, sel := t.dec.sel } ∧
        t.response = some (okWord t.dec.nsel.toNat) ∧ t.dec.nsel = t.dec.nsucc ∧ Classified t ∧
        ((List.range t.dec.nsel.toNat).map fun j => (t.dec.sel.getD j 0#8).toNat) =
          (List.range t.dec.resRows.toNat).filter (fun r => succAt t r && !redAt t r) ∧
        OnlyResultChanged s t) ∧
    (s.dec.k = 0#5 → exec .decgen s = .next (errAfter s 1))

/-- R187: the reduction is by invertible row operations, so it keeps the row space: a linear relation among columns
holds of every result row exactly when it holds of every accumulated packet. -/
def Obligations.ReductionKeepsTheRowSpace : Prop :=
  ∀ (s t : State) (coeff : Nat → Byte), s.Inv → s.dec.k ≠ 0#5 → exec .decrun s = .next t →
    ((∀ r < s.dec.rows.toNat,
        xorSumTo (s.dec.k.toNat + s.dec.m.toNat) (fun j => polyMul (coeff j) (cell s .dpkt r j)) = 0#8) ↔
      ∀ r < s.dec.rows.toNat,
        xorSumTo (s.dec.k.toNat + s.dec.m.toNat) (fun j => polyMul (coeff j) (cell t .dres r j)) = 0#8)

/-- R188 (d), (e), R34: the result is in reduced echelon form over the vector columns: rows 0..DRANK-1 have pivot
columns that increase, each with a 1 in its own row and 0 in every other, and the rows from DRANK on have all-zero
vectors. -/
def Obligations.ReductionIsReducedEchelon : Prop :=
  ∀ s t : State, s.Inv → s.dec.k ≠ 0#5 → exec .decrun s = .next t →
    ∃ col : List Nat,
      col.length = t.dec.rank.toNat ∧ col.Pairwise (· < ·) ∧ (∀ c ∈ col, c < t.dec.k.toNat) ∧
      (∀ i (h : i < col.length), ∀ r < t.dec.resRows.toNat, cell t .dres r col[i] = if r = i then 0x01#8 else 0x00#8) ∧
      (∀ i (h : i < col.length), ∀ j < col[i], cell t .dres i j = 0x00#8) ∧
      ∀ r < t.dec.resRows.toNat, t.dec.rank.toNat ≤ r → ZeroVector t r

/-- R194: when every accumulated row is a coded packet of one generation (its payload is its vector's weighted sum of
the fragments), the payload of every successful row is the fragment its position names, and every redundant row
has an all-zero payload. -/
def Obligations.DecodingRecoversTheFragments : Prop :=
  ∀ (s t : State) (i : Instr) (fragment : Nat → Nat → Byte), s.Inv → s.dec.k ≠ 0#5 → (i = .decrun ∨ i = .decgen) →
    (∀ r < s.dec.rows.toNat, ∀ x < s.dec.m.toNat,
      cell s .dpkt r (s.dec.k.toNat + x) =
        xorSumTo s.dec.k.toNat fun p => polyMul (cell s .dpkt r p) (fragment p x)) →
    exec i s = .next t →
      ∀ r < t.dec.resRows.toNat, ∀ x < s.dec.m.toNat,
        (succAt t r = true → cell t .dres r (s.dec.k.toNat + x) = fragment (pivAt t r) x) ∧
        (redAt t r = true → cell t .dres r (s.dec.k.toNat + x) = 0x00#8)

/-- R194: when the rank reaches the generation size, rows 0..DEC_K-1 are successful with DPIV[r] = r and every other
row is redundant. -/
def Obligations.FullRankDecodesEveryFragment : Prop :=
  ∀ s t : State, s.Inv → s.dec.k ≠ 0#5 → exec .decrun s = .next t → t.dec.rank = t.dec.k →
    t.dec.k.toNat ≤ t.dec.resRows.toNat ∧ t.dec.nsucc.toNat = t.dec.k.toNat ∧
    ∀ r < t.dec.resRows.toNat,
      if r < t.dec.k.toNat then succAt t r = true ∧ pivAt t r = r else redAt t r = true

/-- R193: decoding is stateless: what DECRUN or DECGEN answers and leaves depends only on the shape, the number of rows
and the accumulated bytes; units that agree on those agree on the whole result, whatever result either held before,
and running the command twice gives the same result as once (and, by log 11, the same entries beyond the result). -/
def Obligations.DecodingIsStateless : Prop :=
  ∀ (i : Instr) (s₁ s₂ t₁ t₂ : State),
    (i = .decrun ∨ i = .decgen) → s₁.Inv → s₂.Inv → s₁.params = s₂.params → s₁.dec.k ≠ 0#5 →
    s₁.dec.k = s₂.dec.k → s₁.dec.m = s₂.dec.m → s₁.dec.rows = s₂.dec.rows →
    (∀ r < s₁.dec.rows.toNat, ∀ j < s₁.dec.k.toNat + s₁.dec.m.toNat, cell s₁ .dpkt r j = cell s₂ .dpkt r j) →
    exec i s₁ = .next t₁ → exec i s₂ = .next t₂ →
      t₁.response = t₂.response ∧ t₁.dec.resRows = t₂.dec.resRows ∧ t₁.dec.rank = t₂.dec.rank ∧
      t₁.dec.nsucc = t₂.dec.nsucc ∧ t₁.dec.nred = t₂.dec.nred ∧ t₁.dec.nsel = t₂.dec.nsel ∧
      (∀ r < t₁.dec.resRows.toNat,
        succAt t₁ r = succAt t₂ r ∧ redAt t₁ r = redAt t₂ r ∧ pivAt t₁ r = pivAt t₂ r ∧
        ∀ j < t₁.dec.k.toNat + t₁.dec.m.toNat, cell t₁ .dres r j = cell t₂ .dres r j) ∧
      (∀ j < t₁.dec.nsel.toNat, t₁.dec.sel[j]? = t₂.dec.sel[j]?) ∧
      exec i t₁ = .next t₁

/-! ### SC -/

/-- R215, R216: CFGSET stores any value in the selected configuration register, a selector above 2 is ValidationError;
CFGLOAD sets CFG_LOADED, which no command clears. Nothing else changes. -/
def Obligations.ConfigurationCommands : Prop :=
  ∀ (a b : Byte) (s : State),
    HasWord (.cfgset a b) 0x70#8 a b 0#8 ∧ HasWord .cfgload 0x71#8 0#8 0#8 0#8 ∧
    exec (.cfgset 0x00#8 b) s = .next (okAfter { s with cfg := { s.cfg with k := b } } 0) ∧
    exec (.cfgset 0x01#8 b) s = .next (okAfter { s with cfg := { s.cfg with red := b } } 0) ∧
    exec (.cfgset 0x02#8 b) s = .next (okAfter { s with cfg := { s.cfg with seed := b } } 0) ∧
    (2 < a.toNat → exec (.cfgset a b) s = .next (errAfter s 1)) ∧
    exec .cfgload s = .next (okAfter { s with cfg := { s.cfg with loaded := true } } 0) ∧
    ∀ (i : Instr) (t : State), s.cfg.loaded = true → exec i s = .next t → t.cfg.loaded = true

/-- R214: SSTART with a loaded configuration, no session, a generation size 1..16 and fragments of one length
preprocesses, loads the seed, and creates the session from the snapshot; otherwise it is ValidationError and nothing
is half-built. -/
def Obligations.SstartCreatesTheSession : Prop :=
  ∀ s : State,
    HasWord .sstart 0x72#8 0#8 0#8 0#8 ∧
    (s.cfg.loaded = true → s.sess.active = false → 1 ≤ s.cfg.k.toNat → s.cfg.k.toNat ≤ 16 → EqualLengths s →
      exec .sstart s =
        .next (okAfter
          { s with
            enc := preprocessed s s.cfg.k.toNat
            cg := { seed := s.cfg.seed, state := s.cfg.seed, count := 0#8 }
            sess :=
              { active := true, k := s.cfg.k.setWidth 5, red := s.cfg.red, seed := s.cfg.seed, curGen := 0#8,
                curFrag := 0#8, genCount := (preprocessed s s.cfg.k.toNat).ngen, totalFrags := s.enc.nfrag,
                fsize := (preprocessed s s.cfg.k.toNat).m, metaSeq := 0#8, metaGen := 0#8, metaPre := 0#8,
                metaPost := 0#8 } }
          ((s.enc.nfrag.toNat + s.cfg.k.toNat - 1) / s.cfg.k.toNat))) ∧
    (s.cfg.loaded = false ∨ s.sess.active = true ∨ s.cfg.k = 0#8 ∨ 16 < s.cfg.k.toNat ∨ ¬ EqualLengths s →
      exec .sstart s = .next (errAfter s 1))

/-- R217: SFETCH in an incomplete generation with a generation to code from and room in the cycle codes one packet into
slot 0, records its metadata, counts it and answers the new CUR_FRAG; nothing else changes, no byte outside the
packet included. Without a session, in a complete generation, with no generation to code from or at the top of CUR_FRAG
it is ValidationError; otherwise, over the generator's cycle, it is CycleExhausted; then nothing is drawn. That CPKPRE
and CPKPOST beyond slot 0 are kept is also log 11. -/
def Obligations.SfetchReturnsOnePacket : Prop :=
  ∀ s : State,
    HasWord .sfetch 0x73#8 0#8 0#8 0#8 ∧
    (s.Inv → s.sess.active = true →
      s.sess.curFrag.toNat <
        min (s.sess.k.toNat + s.sess.red.toNat)
          (s.sess.totalFrags.toNat - s.sess.curGen.toNat * s.sess.k.toNat + s.sess.red.toNat) →
      s.enc.gen.toNat < s.enc.ngen.toNat → s.sess.curFrag ≠ 255#8 →
      s.cg.count.toNat + genSizeOf s s.enc.gen.toNat ≤ 255 →
      ∃ t, exec .sfetch s = .next t ∧ t.response = some (okWord (s.sess.curFrag.toNat + 1)) ∧
        PacketAt s t s.enc.gen.toNat (genSizeOf s s.enc.gen.toNat) 0 s.cg.state ∧
        (∀ j > 0, t.enc.cpkpre[j]? = s.enc.cpkpre[j]? ∧ t.enc.cpkpost[j]? = s.enc.cpkpost[j]?) ∧
        t.errlog = s.errlog ∧
        SameUnits
          { s with
            cg :=
              { s.cg with
                state := lfsrStep^[genSizeOf s s.enc.gen.toNat] s.cg.state
                count := BitVec.ofNat 8 (s.cg.count.toNat + genSizeOf s s.enc.gen.toNat) }
            enc :=
              { s.enc with
                cpkn := 1#8
                cpkg := BitVec.ofNat 5 (genSizeOf s s.enc.gen.toNat)
                cpkm := s.enc.m
                cpkgen := s.enc.gen
                cpkpre := t.enc.cpkpre
                cpkpost := t.enc.cpkpost }
            sess :=
              { s.sess with
                metaSeq := s.sess.curFrag
                metaGen := s.sess.curGen
                metaPre := s.cg.state
                metaPost := lfsrStep^[genSizeOf s s.enc.gen.toNat] s.cg.state
                curFrag := s.sess.curFrag + 1#8 } } t ∧
        SameBytesBut .cpk (InRows 1 (genSizeOf s s.enc.gen.toNat + s.enc.m.toNat)) s t) ∧
    (s.sess.active = false ∨
      min (s.sess.k.toNat + s.sess.red.toNat)
        (s.sess.totalFrags.toNat - s.sess.curGen.toNat * s.sess.k.toNat + s.sess.red.toNat) ≤ s.sess.curFrag.toNat ∨
      s.enc.valid = false ∨ s.enc.ngen.toNat ≤ s.enc.gen.toNat ∨ s.sess.curFrag = 255#8 →
      exec .sfetch s = .next (errAfter s 1)) ∧
    (s.sess.active = true →
      s.sess.curFrag.toNat <
        min (s.sess.k.toNat + s.sess.red.toNat)
          (s.sess.totalFrags.toNat - s.sess.curGen.toNat * s.sess.k.toNat + s.sess.red.toNat) →
      s.enc.valid = true → s.enc.gen.toNat < s.enc.ngen.toNat → s.sess.curFrag ≠ 255#8 →
      255 < s.cg.count.toNat + genSizeOf s s.enc.gen.toNat → exec .sfetch s = .next (errAfter s 2))

/-- R172, R219: SADV of a session below the top of the index registers goes to the next generation, from its first
fragment, and moves the encoder's pointer; the generator and all else are untouched. Without a session or at the top
it is ValidationError. -/
def Obligations.SadvAdvancesTheGeneration : Prop :=
  ∀ s : State,
    HasWord .sadv 0x74#8 0#8 0#8 0#8 ∧
    (s.sess.active = true → s.sess.curGen ≠ 255#8 → s.enc.gen ≠ 255#8 →
      exec .sadv s =
        .next (okAfter
          { s with
            sess := { s.sess with curGen := s.sess.curGen + 1#8, curFrag := 0#8 }
            enc := { s.enc with gen := s.enc.gen + 1#8 } }
          (s.sess.curGen.toNat + 1))) ∧
    (s.sess.active = false ∨ s.sess.curGen = 255#8 ∨ s.enc.gen = 255#8 → exec .sadv s = .next (errAfter s 1))

/-- R218: SSTOP always succeeds: the session registers, NFRAG and ENC_VALID are cleared and the generator restarts from
its seed, whether or not a session was active; a second SSTOP changes nothing. -/
def Obligations.SstopClearsTheSession : Prop :=
  ∀ s t : State,
    HasWord .sstop 0x75#8 0#8 0#8 0#8 ∧
    exec .sstop s =
      .next (okAfter
        { s with
          sess :=
            { active := false, k := 0#5, red := 0#8, seed := 0#8, curGen := 0#8, curFrag := 0#8, genCount := 0#8,
              totalFrags := 0#8, fsize := 0#8, metaSeq := 0#8, metaGen := 0#8, metaPre := 0#8, metaPost := 0#8 }
          enc := { s.enc with nfrag := 0#8, valid := false }
          cg := { s.cg with state := s.cg.seed, count := 0#8 } } 0) ∧
    (exec .sstop s = .next t → exec .sstop t = .next t)

/-- R212, R213, R220 to R222: SGENC, SLAST and SDONE answer the predicates of the active session, done being complete and
last, and change nothing but the response; without a session they are ValidationError. -/
def Obligations.SessionPredicateCommands : Prop :=
  ∀ (s : State) (complete last : Bool),
    (complete = true ↔
      min (s.sess.k.toNat + s.sess.red.toNat)
        (s.sess.totalFrags.toNat - s.sess.curGen.toNat * s.sess.k.toNat + s.sess.red.toNat) ≤
        s.sess.curFrag.toNat) →
    (last = true ↔ s.sess.genCount.toNat ≤ s.sess.curGen.toNat + 1) →
    HasWord .sgenc 0x76#8 0#8 0#8 0#8 ∧ HasWord .slast 0x77#8 0#8 0#8 0#8 ∧ HasWord .sdone 0x78#8 0#8 0#8 0#8 ∧
    (s.sess.active = true →
      exec .sgenc s = .next (okAfter s complete.toNat) ∧ exec .slast s = .next (okAfter s last.toNat) ∧
      exec .sdone s = .next (okAfter s (complete && last).toNat)) ∧
    (s.sess.active = false →
      exec .sgenc s = .next (errAfter s 1) ∧ exec .slast s = .next (errAfter s 1) ∧
      exec .sdone s = .next (errAfter s 1))

/-! ### FC -/

/-- R26, R241, R242: the table is eight bitwise steps with polynomial 0xD5; CRC8 answers the CRC of the first `a` bytes
of FIN and changes nothing but the response. -/
def Obligations.Crc8AnswersTheBitwiseCrc : Prop :=
  ∀ (a : Byte) (s : State),
    HasWord (.crc8 a) 0x80#8 a 0#8 0#8 ∧ crcTable a = crcBit^[8] a ∧
    exec (.crc8 a) s = .next (okAfter s (crcBitwise (bytesOf s .fin a.toNat)).toNat)

/-- R243, R253: COBS encoding of at most 254 bytes is the encoding by blocks; it gives one byte more, none of them zero (the
spec's own inference in R243), and decoding gives the bytes back. -/
def Obligations.CobsRoundTrip : Prop :=
  ∀ d : List Byte, d.length ≤ 254 →
    cobsEncode d = cobsBlocks (d.length + 1) d ∧ (cobsEncode d).length = d.length + 1 ∧
      (∀ b ∈ cobsEncode d, b ≠ 0x00#8) ∧ cobsDecode (cobsEncode d) = d

/-- R245: COBS decoding of any bytes gives what they read as runs, and the empty result where they do not (a code of zero,
or a run past the end). -/
def Obligations.CobsDecodeReadsRuns : Prop :=
  ∀ e : List Byte,
    (∀ out, CobsRuns e out → cobsDecode e = out) ∧ ((∀ out, ¬ CobsRuns e out) → cobsDecode e = [])

/-- R244: COBSENC of at most 254 bytes puts the encoding of FIN's first `a` bytes into FOUT from index 0, its length into
FOUTN, and answers the length; no other byte and no other register changes. 255 is ValidationError. -/
def Obligations.CobsencFillsTheOutputBuffer : Prop :=
  ∀ (a : Byte) (s : State),
    HasWord (.cobsenc a) 0x81#8 a 0#8 0#8 ∧
    (a.toNat ≤ 254 →
      ∃ t, exec (.cobsenc a) s = .next t ∧ t.response = some (okWord (a.toNat + 1)) ∧ t.errlog = s.errlog ∧
        bytesOf t .fout (a.toNat + 1) = cobsEncode (bytesOf s .fin a.toNat) ∧
        SameUnits { s with fc := { s.fc with foutn := BitVec.ofNat 9 (a.toNat + 1) } } t ∧
        SameBytesBut .fout (fun key => key < a.toNat + 1) s t) ∧
    (a = 255#8 → exec (.cobsenc a) s = .next (errAfter s 1))

/-- R246: COBSDEC whose decode result is not empty puts it into FOUT and its length into FOUTN and answers the length;
an empty result is FramingError and sets FOUTN to 0. -/
def Obligations.CobsdecFillsTheOutputBuffer : Prop :=
  ∀ (a : Byte) (s : State),
    HasWord (.cobsdec a) 0x82#8 a 0#8 0#8 ∧
    (cobsDecode (bytesOf s .fin a.toNat) ≠ [] →
      ∃ t, exec (.cobsdec a) s = .next t ∧
        t.response = some (okWord (cobsDecode (bytesOf s .fin a.toNat)).length) ∧ t.errlog = s.errlog ∧
        t.fc.foutn.toNat = (cobsDecode (bytesOf s .fin a.toNat)).length ∧
        bytesOf t .fout t.fc.foutn.toNat = cobsDecode (bytesOf s .fin a.toNat) ∧
        SameUnits { s with fc := { s.fc with foutn := t.fc.foutn } } t ∧
        SameBytesBut .fout (fun key => key < t.fc.foutn.toNat) s t) ∧
    (cobsDecode (bytesOf s .fin a.toNat) = [] →
      exec (.cobsdec a) s = .next (errAfter { s with fc := { s.fc with foutn := 0#9 } } 4))

/-- R240, R247: FRBUILD of at most 252 payload bytes puts the frame into FOUT: start byte, length of the COBS part, the
COBS encoding of CRC, length and payload, end byte, which is the frame's one zero; it answers the frame's length.
More than 252 is ValidationError. -/
def Obligations.FrbuildBuildsTheWireFrame : Prop :=
  ∀ (a : Byte) (s : State),
    HasWord (.frbuild a) 0x83#8 a 0#8 0#8 ∧
    (a.toNat ≤ 252 →
      ∃ t, exec (.frbuild a) s = .next t ∧ t.response = some (okWord (a.toNat + 6)) ∧ t.errlog = s.errlog ∧
        t.readByte .fout 0 = 0xFF#8 ∧ t.readByte .fout 1 = a + 3#8 ∧
        ((List.range (a.toNat + 3)).map fun i => t.readByte .fout (2 + i)) =
          cobsEncode (crcBitwise (bytesOf s .fin a.toNat) :: a :: bytesOf s .fin a.toNat) ∧
        (∀ i < a.toNat + 6, t.readByte .fout i = 0x00#8 ↔ i = a.toNat + 5) ∧
        SameUnits { s with fc := { s.fc with foutn := BitVec.ofNat 9 (a.toNat + 6) } } t ∧
        SameBytesBut .fout (fun key => key < a.toNat + 6) s t) ∧
    (252 < a.toNat → exec (.frbuild a) s = .next (errAfter s 1))

/-- R250, R251, R252: RXBYTE while unsynchronised starts a frame at 0xFF and discards any other byte; while collecting it
buffers a byte that is not zero; where the buffer is full it drops the frame with cause 7. The zero byte that ends a
frame is judged by the checks in their order: too short 1, declared length below the received 2, COBS result empty 3,
content below two bytes 4, inner length 5, CRC 6, each a FramingError that drops the frame with that cause; a frame
that passes delivers its payload to RXPAY and answers 1. The zero that ends a dropped frame may stand in RXBUF (log 19). -/
def Obligations.RxbyteReassemblesFrames : Prop :=
  (∀ (a : Byte) (s : State),
      HasWord (.rxbyte a) 0x84#8 a 0#8 0#8 ∧
      (s.fc.rxsync = false → a ≠ 0xFF#8 → exec (.rxbyte a) s = .next (okAfter s 0)) ∧
      (s.fc.rxsync = false →
        ∃ t, exec (.rxbyte 0xFF#8) s = .next t ∧ t.response = some (okWord 0) ∧ t.errlog = s.errlog ∧
          t.readByte .rxbuf 0 = 0xFF#8 ∧ SameUnits { s with fc := { s.fc with rxn := 1#9, rxsync := true } } t ∧
          SameBytesBut .rxbuf (fun key => key = 0) s t) ∧
      (s.fc.rxsync = true → s.fc.rxn.toNat < 258 → a ≠ 0x00#8 →
        ∃ t, exec (.rxbyte a) s = .next t ∧ t.response = some (okWord 0) ∧ t.errlog = s.errlog ∧
          t.readByte .rxbuf s.fc.rxn.toNat = a ∧
          SameUnits { s with fc := { s.fc with rxn := s.fc.rxn + 1#9 } } t ∧
          SameBytesBut .rxbuf (fun key => key = s.fc.rxn.toNat) s t) ∧
      (s.fc.rxsync = true → s.fc.rxn.toNat = 258 →
        exec (.rxbyte a) s =
          .next (errAfter { s with fc := { s.fc with rxsync := false, rxn := 0#9, frCause := 7#3 } } 4))) ∧
    ∀ (s : State) (n : Nat) (content : List Byte),
      s.Inv → s.fc.rxsync = true → s.fc.rxn.toNat < 258 → n = s.fc.rxn.toNat + 1 →
      content = cobsDecode ((List.range (n - 3)).map fun i => s.readByte .rxbuf (2 + i)) →
        let declared := if n = 2 then 0 else (s.readByte .rxbuf 1).toNat
        let cause : Nat :=
          if n < 3 then 1 else if declared + 3 < n then 2 else if content.length = 0 then 3
          else if content.length < 2 then 4 else if (content.getD 1 0#8).toNat ≠ content.length - 2 then 5
          else if crcBitwise (content.drop 2) ≠ content.getD 0 0#8 then 6 else 0
        ∃ t, exec (.rxbyte 0x00#8) s = .next t ∧
        SameUnits { s with fc := t.fc } t ∧
        t.fc.frCause.toNat = cause ∧ t.fc.rxsync = false ∧ t.fc.rxn = 0#9 ∧ t.fc.foutn = s.fc.foutn ∧
        (cause ≠ 0 → t.response = some 0x04000000#32 ∧ t.errlog = s.errlog ||| 0b010000#6 ∧
          t.fc.rxpayn = s.fc.rxpayn ∧ SameBytesBut .rxbuf (fun key => key = s.fc.rxn.toNat) s t) ∧
        (cause = 0 → t.response = some (okWord 1) ∧ t.errlog = s.errlog ∧
          t.fc.rxpayn.toNat = content.length - 2 ∧
          bytesOf t .rxpay (content.length - 2) = content.drop 2 ∧
          ∀ (sp : Space) (key : Nat), ¬ (sp = .rxbuf ∧ key = s.fc.rxn.toNat) →
            ¬ (sp = .rxpay ∧ key < content.length - 2) → t.readByte sp key = s.readByte sp key)

/-- R253: the bytes of a frame that FRBUILD made, given in order to the RXBYTE of any unit that is searching for a start
byte, are answered 0 up to the last, which is answered 1, and the payload is delivered. -/
def Obligations.FrameRoundTrip : Prop :=
  ∀ (a : Byte) (s u v : State), a.toNat ≤ 252 → exec (.frbuild a) s = .next u → v.fc.rxsync = false →
    (∀ j < a.toNat + 5, (fed v ((bytesOf u .fout (a.toNat + 6)).take (j + 1))).response = some (okWord 0)) ∧
    (fed v (bytesOf u .fout (a.toNat + 6))).response = some (okWord 1) ∧
    (fed v (bytesOf u .fout (a.toNat + 6))).fc.rxpayn = a ∧
    (fed v (bytesOf u .fout (a.toNat + 6))).fc.rxsync = false ∧
    bytesOf (fed v (bytesOf u .fout (a.toNat + 6))) .rxpay a.toNat = bytesOf s .fin a.toNat

/-! ### Separation of the units -/

/-- R28 to R39, the column "written by", register by register and memory by memory: ERRLOG is changed only with a status
other than OK, and each other register, register array and memory only by the commands that its row names. That entries
beyond a bound are among what no other command changes is also log 11. -/
def Obligations.OnlyTheNamedCommandsWrite : Prop :=
  ∀ (i : Instr) (s t : State), exec i s = .next t →
    (t.errlog ≠ s.errlog → ∃ rw, t.response = some rw ∧ responseStatus rw ≠ 0) ∧
    -- LFSEED, SSTART
    (t.cg.seed ≠ s.cg.seed →
      HasOpcode [0x40#8, 0x72#8] i) ∧
    -- LFSEED, LFRESET, LFGEN, ENCPRE, SSTART, SFETCH, SSTOP
    (t.cg.state ≠ s.cg.state ∨ t.cg.count ≠ s.cg.count →
      HasOpcode [0x40#8, 0x41#8, 0x42#8, 0x51#8, 0x72#8, 0x73#8, 0x75#8] i) ∧
    -- FRCNT, SSTOP
    (t.enc.nfrag ≠ s.enc.nfrag →
      HasOpcode [0x10#8, 0x75#8] i) ∧
    -- FRLEN
    (t.enc.srclen ≠ s.enc.srclen →
      HasOpcode [0x11#8] i) ∧
    -- ENCPREP, SSTART, SSTOP
    (t.enc.valid ≠ s.enc.valid →
      HasOpcode [0x50#8, 0x72#8, 0x75#8] i) ∧
    -- ENCPREP, SSTART
    (t.enc.k ≠ s.enc.k ∨ t.enc.m ≠ s.enc.m ∨ t.enc.n ≠ s.enc.n ∨ t.enc.ngen ≠ s.enc.ngen →
      HasOpcode [0x50#8, 0x72#8] i) ∧
    -- ENCPREP, SSTART, SADV
    (t.enc.gen ≠ s.enc.gen →
      HasOpcode [0x50#8, 0x72#8, 0x74#8] i) ∧
    -- ENCPRE, SFETCH
    (t.enc.cpkn ≠ s.enc.cpkn ∨ t.enc.cpkg ≠ s.enc.cpkg ∨ t.enc.cpkgen ≠ s.enc.cpkgen ∨ t.enc.cpkm ≠ s.enc.cpkm →
      HasOpcode [0x51#8, 0x73#8] i) ∧
    -- ENCPRE, SFETCH
    (t.enc.cpkpre ≠ s.enc.cpkpre ∨ t.enc.cpkpost ≠ s.enc.cpkpost →
      HasOpcode [0x51#8, 0x73#8] i) ∧
    -- DECCFG
    (t.dec.k ≠ s.dec.k ∨ t.dec.m ≠ s.dec.m →
      HasOpcode [0x60#8] i) ∧
    -- DPCNT, DECCFG
    (t.dec.rows ≠ s.dec.rows →
      HasOpcode [0x16#8, 0x60#8] i) ∧
    -- DECRUN, DECGEN, DECCFG
    (t.dec.resRows ≠ s.dec.resRows ∨ t.dec.rank ≠ s.dec.rank ∨ t.dec.nsucc ≠ s.dec.nsucc ∨ t.dec.nred ≠ s.dec.nred ∨
        t.dec.nsel ≠ s.dec.nsel →
      HasOpcode [0x61#8, 0x62#8, 0x60#8] i) ∧
    -- DECRUN, DECGEN
    (t.dec.succ ≠ s.dec.succ ∨ t.dec.red ≠ s.dec.red ∨ t.dec.piv ≠ s.dec.piv →
      HasOpcode [0x61#8, 0x62#8] i) ∧
    -- DECGEN
    (t.dec.sel ≠ s.dec.sel →
      HasOpcode [0x62#8] i) ∧
    -- CFGSET
    (t.cfg.k ≠ s.cfg.k ∨ t.cfg.red ≠ s.cfg.red ∨ t.cfg.seed ≠ s.cfg.seed →
      HasOpcode [0x70#8] i) ∧
    -- CFGLOAD
    (t.cfg.loaded ≠ s.cfg.loaded →
      HasOpcode [0x71#8] i) ∧
    -- SSTART, SSTOP
    (t.sess.active ≠ s.sess.active ∨ t.sess.k ≠ s.sess.k ∨ t.sess.red ≠ s.sess.red ∨ t.sess.seed ≠ s.sess.seed ∨
        t.sess.genCount ≠ s.sess.genCount ∨ t.sess.totalFrags ≠ s.sess.totalFrags ∨ t.sess.fsize ≠ s.sess.fsize →
      HasOpcode [0x72#8, 0x75#8] i) ∧
    -- SSTART, SADV, SSTOP
    (t.sess.curGen ≠ s.sess.curGen →
      HasOpcode [0x72#8, 0x74#8, 0x75#8] i) ∧
    -- SSTART, SFETCH, SADV, SSTOP
    (t.sess.curFrag ≠ s.sess.curFrag →
      HasOpcode [0x72#8, 0x73#8, 0x74#8, 0x75#8] i) ∧
    -- SFETCH, SSTART, SSTOP
    (t.sess.metaSeq ≠ s.sess.metaSeq ∨ t.sess.metaGen ≠ s.sess.metaGen ∨ t.sess.metaPre ≠ s.sess.metaPre ∨
        t.sess.metaPost ≠ s.sess.metaPost →
      HasOpcode [0x73#8, 0x72#8, 0x75#8] i) ∧
    -- COBSENC, COBSDEC, FRBUILD
    (t.fc.foutn ≠ s.fc.foutn →
      HasOpcode [0x81#8, 0x82#8, 0x83#8] i) ∧
    -- RXBYTE
    (t.fc.rxsync ≠ s.fc.rxsync ∨ t.fc.rxn ≠ s.fc.rxn ∨ t.fc.rxpayn ≠ s.fc.rxpayn ∨ t.fc.frCause ≠ s.fc.frCause →
      HasOpcode [0x84#8] i) ∧
    -- FRWR
    (t.mem.src ≠ s.mem.src →
      HasOpcode [0x12#8] i) ∧
    -- ENCPRE, SFETCH
    (t.mem.cpk ≠ s.mem.cpk →
      HasOpcode [0x51#8, 0x73#8] i) ∧
    -- DPWR
    (t.mem.dpkt ≠ s.mem.dpkt →
      HasOpcode [0x17#8] i) ∧
    -- DECRUN, DECGEN
    (t.mem.dres ≠ s.mem.dres →
      HasOpcode [0x61#8, 0x62#8] i) ∧
    -- FIWR
    (t.mem.fin ≠ s.mem.fin →
      HasOpcode [0x1C#8] i) ∧
    -- COBSENC, COBSDEC, FRBUILD
    (t.mem.fout ≠ s.mem.fout →
      HasOpcode [0x81#8, 0x82#8, 0x83#8] i) ∧
    -- RXBYTE
    (t.mem.rxbuf ≠ s.mem.rxbuf ∨ t.mem.rxpay ≠ s.mem.rxpay →
      HasOpcode [0x84#8] i)

/-- R3, R210: session state is read by no command outside 45_session.md but RDREG: any other command does the same,
with the same response, whatever the configuration and session registers hold, and leaves those as they are. -/
def Obligations.SessionUnitIsSeparable : Prop :=
  ∀ (i : Instr) (s t : State) (x : SessRegs) (c : CfgRegs),
    isSessionCommand i = false → (∀ a, i ≠ .rdreg a) → exec i s = .next t →
      exec i { s with sess := x, cfg := c } = .next { t with sess := x, cfg := c }
end

