-- ==== Sys2Proof/Laws/Decode.lean ====
section
/-! SUPPORT. The four fields of a command word put together from four bytes (30_encoding.md R81), and what reading a
word as a command can give. -/

namespace Sys2Proof

section Fields

variable (op a b c : Byte)

@[simp] theorem fieldOp_append : fieldOp (op ++ a ++ b ++ c) = op := by
  unfold fieldOp
  refine BitVec.eq_of_getLsbD_eq fun i hi => ?_
  simp only [BitVec.getLsbD_extractLsb', BitVec.getLsbD_append]
  have h1 : ¬ 24 + i < 8 := by omega
  have h2 : ¬ 24 + i - 8 < 8 := by omega
  have h3 : ¬ 24 + i - 8 - 8 < 8 := by omega
  have h4 : 24 + i - 8 - 8 - 8 = i := by omega
  simp [h1, h2, h3, h4, hi]

@[simp] theorem fieldA_append : fieldA (op ++ a ++ b ++ c) = a := by
  unfold fieldA
  refine BitVec.eq_of_getLsbD_eq fun i hi => ?_
  simp only [BitVec.getLsbD_extractLsb', BitVec.getLsbD_append]
  have h1 : ¬ 16 + i < 8 := by omega
  have h2 : ¬ 16 + i - 8 < 8 := by omega
  have h3 : 16 + i - 8 - 8 = i := by omega
  simp [h1, h2, h3, hi]

@[simp] theorem fieldB_append : fieldB (op ++ a ++ b ++ c) = b := by
  unfold fieldB
  refine BitVec.eq_of_getLsbD_eq fun i hi => ?_
  simp only [BitVec.getLsbD_extractLsb', BitVec.getLsbD_append]
  have h1 : ¬ 8 + i < 8 := by omega
  have h2 : 8 + i - 8 = i := by omega
  simp [h1, h2, hi]

@[simp] theorem fieldC_append : fieldC (op ++ a ++ b ++ c) = c := by
  unfold fieldC
  refine BitVec.eq_of_getLsbD_eq fun i hi => ?_
  simp only [BitVec.getLsbD_extractLsb', BitVec.getLsbD_append]
  simp [hi]

end Fields

/-- Reading a word as a command of a format: the command, or the named refusal (R85). -/
theorem readAs_cases (f : Format) (cw : CommandWord) (i : Instr) :
    (f.admits (fieldA cw, fieldB cw, fieldC cw) = true ∧ readAs f cw i = .ok i) ∨
      (f.admits (fieldA cw, fieldB cw, fieldC cw) = false ∧ readAs f cw i = .error (.reservedField (fieldOp cw))) := by
  unfold readAs
  cases f.admits (fieldA cw, fieldB cw, fieldC cw) <;> simp

end Sys2Proof
end

