-- ==== Sys2Proof/Laws/State.lean ====
section
/-! SUPPORT. One lemma per field per update of the state, so that no later proof unfolds a record update. -/

namespace Sys2Proof.Machine

section Updates

variable (s : State)

@[simp] theorem State.setInbox_params (x : List HostEvent) : (s.setInbox x).params = s.params := rfl
@[simp] theorem State.setInbox_epoch (x : List HostEvent) : (s.setInbox x).epoch = s.epoch := rfl
@[simp] theorem State.setInbox_inbox (x : List HostEvent) : (s.setInbox x).inbox = x := rfl
@[simp] theorem State.setInbox_response (x : List HostEvent) : (s.setInbox x).response = s.response := rfl
@[simp] theorem State.setInbox_errlog (x : List HostEvent) : (s.setInbox x).errlog = s.errlog := rfl
@[simp] theorem State.setInbox_cg (x : List HostEvent) : (s.setInbox x).cg = s.cg := rfl
@[simp] theorem State.setInbox_enc (x : List HostEvent) : (s.setInbox x).enc = s.enc := rfl
@[simp] theorem State.setInbox_dec (x : List HostEvent) : (s.setInbox x).dec = s.dec := rfl
@[simp] theorem State.setInbox_cfg (x : List HostEvent) : (s.setInbox x).cfg = s.cfg := rfl
@[simp] theorem State.setInbox_sess (x : List HostEvent) : (s.setInbox x).sess = s.sess := rfl
@[simp] theorem State.setInbox_fc (x : List HostEvent) : (s.setInbox x).fc = s.fc := rfl
@[simp] theorem State.setInbox_mem (x : List HostEvent) : (s.setInbox x).mem = s.mem := rfl

@[simp] theorem State.setResponse_params (x : Option ResponseWord) : (s.setResponse x).params = s.params := rfl
@[simp] theorem State.setResponse_epoch (x : Option ResponseWord) : (s.setResponse x).epoch = s.epoch := rfl
@[simp] theorem State.setResponse_inbox (x : Option ResponseWord) : (s.setResponse x).inbox = s.inbox := rfl
@[simp] theorem State.setResponse_response (x : Option ResponseWord) : (s.setResponse x).response = x := rfl
@[simp] theorem State.setResponse_errlog (x : Option ResponseWord) : (s.setResponse x).errlog = s.errlog := rfl
@[simp] theorem State.setResponse_cg (x : Option ResponseWord) : (s.setResponse x).cg = s.cg := rfl
@[simp] theorem State.setResponse_enc (x : Option ResponseWord) : (s.setResponse x).enc = s.enc := rfl
@[simp] theorem State.setResponse_dec (x : Option ResponseWord) : (s.setResponse x).dec = s.dec := rfl
@[simp] theorem State.setResponse_cfg (x : Option ResponseWord) : (s.setResponse x).cfg = s.cfg := rfl
@[simp] theorem State.setResponse_sess (x : Option ResponseWord) : (s.setResponse x).sess = s.sess := rfl
@[simp] theorem State.setResponse_fc (x : Option ResponseWord) : (s.setResponse x).fc = s.fc := rfl
@[simp] theorem State.setResponse_mem (x : Option ResponseWord) : (s.setResponse x).mem = s.mem := rfl

@[simp] theorem State.setErrlog_params (x : BitVec 6) : (s.setErrlog x).params = s.params := rfl
@[simp] theorem State.setErrlog_epoch (x : BitVec 6) : (s.setErrlog x).epoch = s.epoch := rfl
@[simp] theorem State.setErrlog_inbox (x : BitVec 6) : (s.setErrlog x).inbox = s.inbox := rfl
@[simp] theorem State.setErrlog_response (x : BitVec 6) : (s.setErrlog x).response = s.response := rfl
@[simp] theorem State.setErrlog_errlog (x : BitVec 6) : (s.setErrlog x).errlog = x := rfl
@[simp] theorem State.setErrlog_cg (x : BitVec 6) : (s.setErrlog x).cg = s.cg := rfl
@[simp] theorem State.setErrlog_enc (x : BitVec 6) : (s.setErrlog x).enc = s.enc := rfl
@[simp] theorem State.setErrlog_dec (x : BitVec 6) : (s.setErrlog x).dec = s.dec := rfl
@[simp] theorem State.setErrlog_cfg (x : BitVec 6) : (s.setErrlog x).cfg = s.cfg := rfl
@[simp] theorem State.setErrlog_sess (x : BitVec 6) : (s.setErrlog x).sess = s.sess := rfl
@[simp] theorem State.setErrlog_fc (x : BitVec 6) : (s.setErrlog x).fc = s.fc := rfl
@[simp] theorem State.setErrlog_mem (x : BitVec 6) : (s.setErrlog x).mem = s.mem := rfl

@[simp] theorem State.setCg_params (x : CgRegs) : (s.setCg x).params = s.params := rfl
@[simp] theorem State.setCg_epoch (x : CgRegs) : (s.setCg x).epoch = s.epoch := rfl
@[simp] theorem State.setCg_inbox (x : CgRegs) : (s.setCg x).inbox = s.inbox := rfl
@[simp] theorem State.setCg_response (x : CgRegs) : (s.setCg x).response = s.response := rfl
@[simp] theorem State.setCg_errlog (x : CgRegs) : (s.setCg x).errlog = s.errlog := rfl
@[simp] theorem State.setCg_cg (x : CgRegs) : (s.setCg x).cg = x := rfl
@[simp] theorem State.setCg_enc (x : CgRegs) : (s.setCg x).enc = s.enc := rfl
@[simp] theorem State.setCg_dec (x : CgRegs) : (s.setCg x).dec = s.dec := rfl
@[simp] theorem State.setCg_cfg (x : CgRegs) : (s.setCg x).cfg = s.cfg := rfl
@[simp] theorem State.setCg_sess (x : CgRegs) : (s.setCg x).sess = s.sess := rfl
@[simp] theorem State.setCg_fc (x : CgRegs) : (s.setCg x).fc = s.fc := rfl
@[simp] theorem State.setCg_mem (x : CgRegs) : (s.setCg x).mem = s.mem := rfl

@[simp] theorem State.setEnc_params (x : EncRegs) : (s.setEnc x).params = s.params := rfl
@[simp] theorem State.setEnc_epoch (x : EncRegs) : (s.setEnc x).epoch = s.epoch := rfl
@[simp] theorem State.setEnc_inbox (x : EncRegs) : (s.setEnc x).inbox = s.inbox := rfl
@[simp] theorem State.setEnc_response (x : EncRegs) : (s.setEnc x).response = s.response := rfl
@[simp] theorem State.setEnc_errlog (x : EncRegs) : (s.setEnc x).errlog = s.errlog := rfl
@[simp] theorem State.setEnc_cg (x : EncRegs) : (s.setEnc x).cg = s.cg := rfl
@[simp] theorem State.setEnc_enc (x : EncRegs) : (s.setEnc x).enc = x := rfl
@[simp] theorem State.setEnc_dec (x : EncRegs) : (s.setEnc x).dec = s.dec := rfl
@[simp] theorem State.setEnc_cfg (x : EncRegs) : (s.setEnc x).cfg = s.cfg := rfl
@[simp] theorem State.setEnc_sess (x : EncRegs) : (s.setEnc x).sess = s.sess := rfl
@[simp] theorem State.setEnc_fc (x : EncRegs) : (s.setEnc x).fc = s.fc := rfl
@[simp] theorem State.setEnc_mem (x : EncRegs) : (s.setEnc x).mem = s.mem := rfl

@[simp] theorem State.setDec_params (x : DecRegs) : (s.setDec x).params = s.params := rfl
@[simp] theorem State.setDec_epoch (x : DecRegs) : (s.setDec x).epoch = s.epoch := rfl
@[simp] theorem State.setDec_inbox (x : DecRegs) : (s.setDec x).inbox = s.inbox := rfl
@[simp] theorem State.setDec_response (x : DecRegs) : (s.setDec x).response = s.response := rfl
@[simp] theorem State.setDec_errlog (x : DecRegs) : (s.setDec x).errlog = s.errlog := rfl
@[simp] theorem State.setDec_cg (x : DecRegs) : (s.setDec x).cg = s.cg := rfl
@[simp] theorem State.setDec_enc (x : DecRegs) : (s.setDec x).enc = s.enc := rfl
@[simp] theorem State.setDec_dec (x : DecRegs) : (s.setDec x).dec = x := rfl
@[simp] theorem State.setDec_cfg (x : DecRegs) : (s.setDec x).cfg = s.cfg := rfl
@[simp] theorem State.setDec_sess (x : DecRegs) : (s.setDec x).sess = s.sess := rfl
@[simp] theorem State.setDec_fc (x : DecRegs) : (s.setDec x).fc = s.fc := rfl
@[simp] theorem State.setDec_mem (x : DecRegs) : (s.setDec x).mem = s.mem := rfl

@[simp] theorem State.setCfg_params (x : CfgRegs) : (s.setCfg x).params = s.params := rfl
@[simp] theorem State.setCfg_epoch (x : CfgRegs) : (s.setCfg x).epoch = s.epoch := rfl
@[simp] theorem State.setCfg_inbox (x : CfgRegs) : (s.setCfg x).inbox = s.inbox := rfl
@[simp] theorem State.setCfg_response (x : CfgRegs) : (s.setCfg x).response = s.response := rfl
@[simp] theorem State.setCfg_errlog (x : CfgRegs) : (s.setCfg x).errlog = s.errlog := rfl
@[simp] theorem State.setCfg_cg (x : CfgRegs) : (s.setCfg x).cg = s.cg := rfl
@[simp] theorem State.setCfg_enc (x : CfgRegs) : (s.setCfg x).enc = s.enc := rfl
@[simp] theorem State.setCfg_dec (x : CfgRegs) : (s.setCfg x).dec = s.dec := rfl
@[simp] theorem State.setCfg_cfg (x : CfgRegs) : (s.setCfg x).cfg = x := rfl
@[simp] theorem State.setCfg_sess (x : CfgRegs) : (s.setCfg x).sess = s.sess := rfl
@[simp] theorem State.setCfg_fc (x : CfgRegs) : (s.setCfg x).fc = s.fc := rfl
@[simp] theorem State.setCfg_mem (x : CfgRegs) : (s.setCfg x).mem = s.mem := rfl

@[simp] theorem State.setSess_params (x : SessRegs) : (s.setSess x).params = s.params := rfl
@[simp] theorem State.setSess_epoch (x : SessRegs) : (s.setSess x).epoch = s.epoch := rfl
@[simp] theorem State.setSess_inbox (x : SessRegs) : (s.setSess x).inbox = s.inbox := rfl
@[simp] theorem State.setSess_response (x : SessRegs) : (s.setSess x).response = s.response := rfl
@[simp] theorem State.setSess_errlog (x : SessRegs) : (s.setSess x).errlog = s.errlog := rfl
@[simp] theorem State.setSess_cg (x : SessRegs) : (s.setSess x).cg = s.cg := rfl
@[simp] theorem State.setSess_enc (x : SessRegs) : (s.setSess x).enc = s.enc := rfl
@[simp] theorem State.setSess_dec (x : SessRegs) : (s.setSess x).dec = s.dec := rfl
@[simp] theorem State.setSess_cfg (x : SessRegs) : (s.setSess x).cfg = s.cfg := rfl
@[simp] theorem State.setSess_sess (x : SessRegs) : (s.setSess x).sess = x := rfl
@[simp] theorem State.setSess_fc (x : SessRegs) : (s.setSess x).fc = s.fc := rfl
@[simp] theorem State.setSess_mem (x : SessRegs) : (s.setSess x).mem = s.mem := rfl

@[simp] theorem State.setFc_params (x : FcRegs) : (s.setFc x).params = s.params := rfl
@[simp] theorem State.setFc_epoch (x : FcRegs) : (s.setFc x).epoch = s.epoch := rfl
@[simp] theorem State.setFc_inbox (x : FcRegs) : (s.setFc x).inbox = s.inbox := rfl
@[simp] theorem State.setFc_response (x : FcRegs) : (s.setFc x).response = s.response := rfl
@[simp] theorem State.setFc_errlog (x : FcRegs) : (s.setFc x).errlog = s.errlog := rfl
@[simp] theorem State.setFc_cg (x : FcRegs) : (s.setFc x).cg = s.cg := rfl
@[simp] theorem State.setFc_enc (x : FcRegs) : (s.setFc x).enc = s.enc := rfl
@[simp] theorem State.setFc_dec (x : FcRegs) : (s.setFc x).dec = s.dec := rfl
@[simp] theorem State.setFc_cfg (x : FcRegs) : (s.setFc x).cfg = s.cfg := rfl
@[simp] theorem State.setFc_sess (x : FcRegs) : (s.setFc x).sess = s.sess := rfl
@[simp] theorem State.setFc_fc (x : FcRegs) : (s.setFc x).fc = x := rfl
@[simp] theorem State.setFc_mem (x : FcRegs) : (s.setFc x).mem = s.mem := rfl

@[simp] theorem State.setMem_params (x : Memories) : (s.setMem x).params = s.params := rfl
@[simp] theorem State.setMem_epoch (x : Memories) : (s.setMem x).epoch = s.epoch := rfl
@[simp] theorem State.setMem_inbox (x : Memories) : (s.setMem x).inbox = s.inbox := rfl
@[simp] theorem State.setMem_response (x : Memories) : (s.setMem x).response = s.response := rfl
@[simp] theorem State.setMem_errlog (x : Memories) : (s.setMem x).errlog = s.errlog := rfl
@[simp] theorem State.setMem_cg (x : Memories) : (s.setMem x).cg = s.cg := rfl
@[simp] theorem State.setMem_enc (x : Memories) : (s.setMem x).enc = s.enc := rfl
@[simp] theorem State.setMem_dec (x : Memories) : (s.setMem x).dec = s.dec := rfl
@[simp] theorem State.setMem_cfg (x : Memories) : (s.setMem x).cfg = s.cfg := rfl
@[simp] theorem State.setMem_sess (x : Memories) : (s.setMem x).sess = s.sess := rfl
@[simp] theorem State.setMem_fc (x : Memories) : (s.setMem x).fc = s.fc := rfl
@[simp] theorem State.setMem_mem (x : Memories) : (s.setMem x).mem = x := rfl

end Updates

section Spaces

variable (m : Memories) (x : Memory)

@[simp] theorem Memories.get_set_same (sp : Space) : (m.set sp x).get sp = x := by cases sp <;> rfl

theorem Memories.get_set_other {sp sp' : Space} (h : sp' ≠ sp) : (m.set sp x).get sp' = m.get sp' := by
  cases sp <;> cases sp' <;> first | rfl | exact absurd rfl h

/-- The update of one space, read at any space. -/
theorem Memories.get_set (sp sp' : Space) : (m.set sp x).get sp' = if sp' = sp then x else m.get sp' := by
  split
  · next h => subst h; exact m.get_set_same x sp'
  · next h => exact m.get_set_other x h

end Spaces

section Reset

variable (p : Params) (e : Nat)

@[simp] theorem State.resetOf_params : (State.resetOf p e).params = p := rfl
@[simp] theorem State.resetOf_epoch : (State.resetOf p e).epoch = e := rfl
@[simp] theorem State.resetOf_inbox : (State.resetOf p e).inbox = [] := rfl
@[simp] theorem State.resetOf_response : (State.resetOf p e).response = none := rfl
@[simp] theorem State.resetOf_errlog : (State.resetOf p e).errlog = 0#6 := rfl
@[simp] theorem State.resetOf_sess : (State.resetOf p e).sess = SessRegs.absent := rfl
@[simp] theorem State.resetOf_get (sp : Space) : (State.resetOf p e).mem.get sp = [] := by cases sp <;> rfl

end Reset

end Sys2Proof.Machine
end

