-- ==== Sys2Proof/Laws/Memory.lean ====
section
/-! SUPPORT. What the memory operations can do: read after write, every other byte as before, and the canonical form
and the shape kept. -/

namespace Sys2Proof.Machine

theorem Memory.byteAt_store_same (m : Memory) (a : Nat) (v : Byte) : Memory.byteAt (Memory.store m a v) a = some v := by
  induction m with
  | nil => simp [Memory.store, Memory.byteAt]
  | cons c m ih =>
    obtain ⟨k, w⟩ := c
    unfold Memory.store
    split
    · simp [Memory.byteAt]
    · split
      · simp [Memory.byteAt]
      · next h => simp [Memory.byteAt, Ne.symm h, ih]

theorem Memory.byteAt_store_other (m : Memory) {a b : Nat} (v : Byte) (h : b ≠ a) :
    Memory.byteAt (Memory.store m a v) b = Memory.byteAt m b := by
  induction m with
  | nil => simp [Memory.store, Memory.byteAt, Ne.symm h]
  | cons c m ih =>
    obtain ⟨k, w⟩ := c
    unfold Memory.store
    split
    · simp [Memory.byteAt, Ne.symm h]
    · split
      · next h' => subst h'; simp [Memory.byteAt, Ne.symm h]
      · simp [Memory.byteAt, ih]

/-- One write, read at any key. -/
theorem Memory.byteAt_store (m : Memory) (a b : Nat) (v : Byte) :
    Memory.byteAt (Memory.store m a v) b = if b = a then some v else Memory.byteAt m b := by
  split
  · next h => subst h; exact Memory.byteAt_store_same m b v
  · next h => exact Memory.byteAt_store_other m v h

/-- Writing a byte again where it was just written changes nothing. -/
theorem Memory.store_store_same (m : Memory) (a : Nat) (v : Byte) :
    Memory.store (Memory.store m a v) a v = Memory.store m a v := by
  induction m with
  | nil => simp [Memory.store]
  | cons c m ih =>
    obtain ⟨k, w⟩ := c
    by_cases h : a < k
    · simp [Memory.store, h]
    · by_cases h' : a = k
      · subst h'; simp [Memory.store]
      · simp [Memory.store, h, h', ih]

/-- A run of writes, read at any key. -/
theorem Memory.byteAt_storeRun (bs : List Byte) (m : Memory) (a b : Nat) :
    Memory.byteAt (Memory.storeRun m a bs) b =
      if a ≤ b ∧ b < a + bs.length then some (bs.getD (b - a) 0#8) else Memory.byteAt m b := by
  induction bs generalizing m a with
  | nil => simp [Memory.storeRun]
  | cons v bs ih =>
    rw [Memory.storeRun, ih, Memory.byteAt_store]
    by_cases h : b = a
    · subst h; simp
    · by_cases h' : a + 1 ≤ b ∧ b < a + 1 + bs.length
      · have e : b - a = (b - (a + 1)) + 1 := by omega
        have h2 : a ≤ b ∧ b < a + (v :: bs).length := by simp only [List.length_cons]; omega
        rw [if_pos h', if_pos h2, e, List.getD_cons_succ]
      · have h2 : ¬ (a ≤ b ∧ b < a + (v :: bs).length) := by simp only [List.length_cons]; omega
        rw [if_neg h', if_neg h, if_neg h2]

theorem Memory.wf_cons (k : Nat) (v : Byte) (m : Memory) :
    Memory.wf ((k, v) :: m) = true ↔ (∀ c ∈ m.head?, k < c.1) ∧ Memory.wf m = true := by
  cases m with
  | nil => simp [Memory.wf]
  | cons c m => obtain ⟨k', v'⟩ := c; simp [Memory.wf]

theorem Memory.head_store (m : Memory) (a : Nat) (v : Byte) :
    ∀ c ∈ (Memory.store m a v).head?, c.1 = a ∨ ∃ d ∈ m.head?, c.1 = d.1 := by
  cases m with
  | nil => simp [Memory.store]
  | cons d m =>
    obtain ⟨k, w⟩ := d
    unfold Memory.store
    split
    · simp
    · split <;> simp

/-- A write keeps the canonical form. -/
theorem Memory.store_wf {m : Memory} (a : Nat) (v : Byte) (h : Memory.wf m = true) :
    Memory.wf (Memory.store m a v) = true := by
  induction m with
  | nil => simp [Memory.store, Memory.wf]
  | cons c m ih =>
    obtain ⟨k, w⟩ := c
    rw [Memory.wf_cons] at h
    unfold Memory.store
    split
    · next hk => rw [Memory.wf_cons, Memory.wf_cons]; exact ⟨by simpa using hk, h⟩
    · next hk =>
      split
      · next hk' => subst hk'; rw [Memory.wf_cons]; exact h
      · next hk' =>
        rw [Memory.wf_cons]
        refine ⟨fun c hc => ?_, ih h.2⟩
        rcases Memory.head_store m a v c hc with e | ⟨d, hd, e⟩
        · omega
        · have := h.1 d hd; omega

theorem Memory.mem_store {m : Memory} {a : Nat} {v : Byte} {c : Host.Cell} (h : c ∈ Memory.store m a v) :
    c = (a, v) ∨ c ∈ m := by
  induction m with
  | nil => simpa [Memory.store] using h
  | cons d m ih =>
    obtain ⟨k, w⟩ := d
    unfold Memory.store at h
    split at h
    · simpa using h
    · split at h
      · next hk =>
        rcases List.mem_cons.1 h with e | e
        · exact .inl e
        · exact .inr (List.mem_cons_of_mem _ e)
      · rcases List.mem_cons.1 h with e | e
        · exact .inr (e ▸ List.mem_cons_self)
        · exact (ih e).imp id (List.mem_cons_of_mem _)

/-- A run of writes keeps the canonical form. -/
theorem Memory.storeRun_wf (bs : List Byte) {m : Memory} (a : Nat) (h : Memory.wf m = true) :
    Memory.wf (Memory.storeRun m a bs) = true := by
  induction bs generalizing m a with
  | nil => exact h
  | cons b bs ih => exact ih (a + 1) (Memory.store_wf a b h)

/-- A run of writes lists no key but those of the run and those listed before. -/
theorem Memory.mem_storeRun (bs : List Byte) {m : Memory} {a : Nat} {c : Host.Cell}
    (h : c ∈ Memory.storeRun m a bs) : (a ≤ c.1 ∧ c.1 < a + bs.length) ∨ c ∈ m := by
  induction bs generalizing m a with
  | nil => exact .inr h
  | cons b bs ih =>
    rcases ih h with e | e
    · left; simp only [List.length_cons]; omega
    · rcases Memory.mem_store e with e | e
      · left; subst e; simp
      · exact .inr e

section State

variable (s : State)

@[simp] theorem State.readByte_setInbox (x : List HostEvent) (sp : Space) (k : Nat) : (s.setInbox x).readByte sp k = s.readByte sp k := rfl
@[simp] theorem State.readByte_setResponse (x : Option ResponseWord) (sp : Space) (k : Nat) : (s.setResponse x).readByte sp k = s.readByte sp k := rfl
@[simp] theorem State.readByte_setErrlog (x : BitVec 6) (sp : Space) (k : Nat) : (s.setErrlog x).readByte sp k = s.readByte sp k := rfl
@[simp] theorem State.readByte_setCg (x : CgRegs) (sp : Space) (k : Nat) : (s.setCg x).readByte sp k = s.readByte sp k := rfl
@[simp] theorem State.readByte_setEnc (x : EncRegs) (sp : Space) (k : Nat) : (s.setEnc x).readByte sp k = s.readByte sp k := rfl
@[simp] theorem State.readByte_setDec (x : DecRegs) (sp : Space) (k : Nat) : (s.setDec x).readByte sp k = s.readByte sp k := rfl
@[simp] theorem State.readByte_setCfg (x : CfgRegs) (sp : Space) (k : Nat) : (s.setCfg x).readByte sp k = s.readByte sp k := rfl
@[simp] theorem State.readByte_setSess (x : SessRegs) (sp : Space) (k : Nat) : (s.setSess x).readByte sp k = s.readByte sp k := rfl
@[simp] theorem State.readByte_setFc (x : FcRegs) (sp : Space) (k : Nat) : (s.setFc x).readByte sp k = s.readByte sp k := rfl

/-- One write, read at any space and key. -/
theorem State.readByte_writeByte (sp sp' : Space) (k k' : Nat) (v : Byte) :
    (s.writeByte sp k v).readByte sp' k' = if sp' = sp ∧ k' = k then v else s.readByte sp' k' := by
  unfold State.readByte State.writeByte
  simp only [State.setMem_mem, State.setMem_epoch, Memories.get_set]
  by_cases h : sp' = sp
  · subst h
    rw [if_pos rfl, Memory.byteAt_store]
    by_cases h' : k' = k <;> simp [h']
  · simp [h]

/-- A run of writes, read at any space and key. -/
theorem State.readByte_writeRun (sp sp' : Space) (k k' : Nat) (bs : List Byte) :
    (s.writeRun sp k bs).readByte sp' k' =
      if sp' = sp ∧ k ≤ k' ∧ k' < k + bs.length then bs.getD (k' - k) 0#8 else s.readByte sp' k' := by
  unfold State.readByte State.writeRun
  simp only [State.setMem_mem, State.setMem_epoch, Memories.get_set]
  by_cases h : sp' = sp
  · subst h
    rw [if_pos rfl, Memory.byteAt_storeRun]
    by_cases h' : k ≤ k' ∧ k' < k + bs.length <;> simp [h']
  · simp [h]

@[simp] theorem State.readRun_length (sp : Space) (k n : Nat) : (s.readRun sp k n).length = n := by
  simp [State.readRun]

theorem State.readRun_getElem (sp : Space) (k n i : Nat) (h : i < (s.readRun sp k n).length) :
    (s.readRun sp k n)[i] = s.readByte sp (k + i) := by
  simp [State.readRun]

/-- Writing a run and reading it back gives the run. -/
theorem State.readRun_writeRun_same (sp : Space) (k : Nat) (bs : List Byte) :
    (s.writeRun sp k bs).readRun sp k bs.length = bs := by
  apply List.ext_getElem
  · simp
  · intro i h₁ h₂
    rw [State.readRun_getElem, State.readByte_writeRun, if_pos ⟨rfl, by omega, by omega⟩]
    simp [h₂]

/-- A write changes nothing but the memory it goes to. -/
theorem State.writeByte_fields (sp : Space) (k : Nat) (v : Byte) :
    (s.writeByte sp k v).setMem s.mem = s := rfl

/-- A run of writes changes nothing but the memory it goes to. -/
theorem State.writeRun_fields (sp : Space) (k : Nat) (bs : List Byte) :
    (s.writeRun sp k bs).setMem s.mem = s := rfl

end State

end Sys2Proof.Machine
end

