-- ==== Sys2Proof/Laws/Ops.lean ====
section
/-! SUPPORT. What completing a command can do: the state after a reply, field by field, and the register arrays. -/

namespace Sys2Proof.Machine

section Replies

variable (s : State)

@[simp] theorem Reply.complete_eq (r : Reply) : r.complete = .next r.settle := rfl
@[simp] theorem Reply.settle_value (v : Nat) : (Reply.value s v).settle = s.answer v := rfl
@[simp] theorem Reply.settle_raise (e : ErrorKind) : (Reply.raise s e).settle = s.takeError e := rfl

/-- A success changes nothing but the response. -/
theorem State.answer_eq (v : Nat) : s.answer v = s.setResponse (some (responseWord 0 v)) := rfl

/-- An error changes nothing but the response and ERRLOG (R272). -/
theorem State.takeError_eq (e : ErrorKind) :
    s.takeError e = (s.setErrlog (s.errlog ||| e.errlogBit)).setResponse (some (responseWord e.code 0)) := rfl

@[simp] theorem State.answer_response (v : Nat) : (s.answer v).response = some (responseWord 0 v) := rfl
@[simp] theorem State.answer_errlog (v : Nat) : (s.answer v).errlog = s.errlog := rfl
@[simp] theorem State.answer_params (v : Nat) : (s.answer v).params = s.params := rfl
@[simp] theorem State.answer_epoch (v : Nat) : (s.answer v).epoch = s.epoch := rfl
@[simp] theorem State.answer_inbox (v : Nat) : (s.answer v).inbox = s.inbox := rfl
@[simp] theorem State.answer_cg (v : Nat) : (s.answer v).cg = s.cg := rfl
@[simp] theorem State.answer_enc (v : Nat) : (s.answer v).enc = s.enc := rfl
@[simp] theorem State.answer_dec (v : Nat) : (s.answer v).dec = s.dec := rfl
@[simp] theorem State.answer_cfg (v : Nat) : (s.answer v).cfg = s.cfg := rfl
@[simp] theorem State.answer_sess (v : Nat) : (s.answer v).sess = s.sess := rfl
@[simp] theorem State.answer_fc (v : Nat) : (s.answer v).fc = s.fc := rfl
@[simp] theorem State.answer_mem (v : Nat) : (s.answer v).mem = s.mem := rfl
@[simp] theorem State.readByte_answer (v : Nat) (sp : Space) (k : Nat) : (s.answer v).readByte sp k = s.readByte sp k := rfl

@[simp] theorem State.takeError_response (e : ErrorKind) : (s.takeError e).response = some (responseWord e.code 0) := rfl
@[simp] theorem State.takeError_errlog (e : ErrorKind) : (s.takeError e).errlog = s.errlog ||| e.errlogBit := rfl
@[simp] theorem State.takeError_params (e : ErrorKind) : (s.takeError e).params = s.params := rfl
@[simp] theorem State.takeError_epoch (e : ErrorKind) : (s.takeError e).epoch = s.epoch := rfl
@[simp] theorem State.takeError_inbox (e : ErrorKind) : (s.takeError e).inbox = s.inbox := rfl
@[simp] theorem State.takeError_cg (e : ErrorKind) : (s.takeError e).cg = s.cg := rfl
@[simp] theorem State.takeError_enc (e : ErrorKind) : (s.takeError e).enc = s.enc := rfl
@[simp] theorem State.takeError_dec (e : ErrorKind) : (s.takeError e).dec = s.dec := rfl
@[simp] theorem State.takeError_cfg (e : ErrorKind) : (s.takeError e).cfg = s.cfg := rfl
@[simp] theorem State.takeError_sess (e : ErrorKind) : (s.takeError e).sess = s.sess := rfl
@[simp] theorem State.takeError_fc (e : ErrorKind) : (s.takeError e).fc = s.fc := rfl
@[simp] theorem State.takeError_mem (e : ErrorKind) : (s.takeError e).mem = s.mem := rfl
@[simp] theorem State.readByte_takeError (e : ErrorKind) (sp : Space) (k : Nat) :
    (s.takeError e).readByte sp k = s.readByte sp k := rfl

end Replies

section Arrays

variable {α : Type}

@[simp] theorem setPrefix_length (old new : List α) : (setPrefix old new).length = old.length := by
  induction old generalizing new with
  | nil => rfl
  | cons o os ih => cases new with
    | nil => rfl
    | cons n ns => simp [setPrefix, ih]

@[simp] theorem setPrefix_nil (old : List α) : setPrefix old [] = old := by cases old <;> rfl

/-- The first entries are the new ones, the others are kept. -/
theorem setPrefix_getElem? (old new : List α) (i : Nat) :
    (setPrefix old new)[i]? = if i < old.length ∧ i < new.length then new[i]? else old[i]? := by
  induction old generalizing new i with
  | nil => simp [setPrefix]
  | cons o os ih =>
    cases new with
    | nil => simp
    | cons n ns =>
      cases i with
      | zero => simp [setPrefix]
      | succ i => simp [setPrefix, ih]

end Arrays

end Sys2Proof.Machine
end

