-- ==== Sys2Proof/Laws/PerInstr.lean ====
section
/-! SUPPORT. A statement made of every command: it is well-formed, that is, its row stands in the opcode map and its
operand fields suit its format (30_encoding.md R82, R84). -/

namespace Sys2Proof.Laws.WellFormedSyntax

/-- The row of the command is one of the 45, and every field its format reserves is 0. -/
def Statement (i : Instr) : Prop := i.wellFormed = true

theorem nop : Statement .nop := rfl
theorem rdreg (a : Byte) : Statement (.rdreg a) := rfl
theorem frcnt (a : Byte) : Statement (.frcnt a) := rfl
theorem frlen (a b : Byte) : Statement (.frlen a b) := rfl
theorem frwr (a b c : Byte) : Statement (.frwr a b c) := rfl
theorem frrd (a b : Byte) : Statement (.frrd a b) := rfl
theorem cprd (a b : Byte) : Statement (.cprd a b) := rfl
theorem cpmd (a b : Byte) : Statement (.cpmd a b) := rfl
theorem dpcnt (a : Byte) : Statement (.dpcnt a) := rfl
theorem dpwr (a b c : Byte) : Statement (.dpwr a b c) := rfl
theorem dprd (a b : Byte) : Statement (.dprd a b) := rfl
theorem drrd (a b : Byte) : Statement (.drrd a b) := rfl
theorem drfl (a : Byte) : Statement (.drfl a) := rfl
theorem dsrd (a : Byte) : Statement (.dsrd a) := rfl
theorem fiwr (a b : Byte) : Statement (.fiwr a b) := rfl
theorem fird (a : Byte) : Statement (.fird a) := rfl
theorem ford (a b : Byte) : Statement (.ford a b) := rfl
theorem rprd (a : Byte) : Statement (.rprd a) := rfl
theorem gfadd (a b : Byte) : Statement (.gfadd a b) := rfl
theorem gfsub (a b : Byte) : Statement (.gfsub a b) := rfl
theorem gfmul (a b : Byte) : Statement (.gfmul a b) := rfl
theorem gfdiv (a b : Byte) : Statement (.gfdiv a b) := rfl
theorem gfpow (a b : Byte) : Statement (.gfpow a b) := rfl
theorem lfseed (a : Byte) : Statement (.lfseed a) := rfl
theorem lfreset : Statement .lfreset := rfl
theorem lfgen : Statement .lfgen := rfl
theorem encprep (a : Byte) : Statement (.encprep a) := rfl
theorem encpre (a b : Byte) : Statement (.encpre a b) := rfl
theorem deccfg (a b : Byte) : Statement (.deccfg a b) := rfl
theorem decrun : Statement .decrun := rfl
theorem decgen : Statement .decgen := rfl
theorem cfgset (a b : Byte) : Statement (.cfgset a b) := rfl
theorem cfgload : Statement .cfgload := rfl
theorem sstart : Statement .sstart := rfl
theorem sfetch : Statement .sfetch := rfl
theorem sadv : Statement .sadv := rfl
theorem sstop : Statement .sstop := rfl
theorem sgenc : Statement .sgenc := rfl
theorem slast : Statement .slast := rfl
theorem sdone : Statement .sdone := rfl
theorem crc8 (a : Byte) : Statement (.crc8 a) := rfl
theorem cobsenc (a : Byte) : Statement (.cobsenc a) := rfl
theorem cobsdec (a : Byte) : Statement (.cobsdec a) := rfl
theorem frbuild (a : Byte) : Statement (.frbuild a) := rfl
theorem rxbyte (a : Byte) : Statement (.rxbyte a) := rfl

end Sys2Proof.Laws.WellFormedSyntax

namespace Sys2Proof.Laws

/-- Every term of `Instr` is well-formed. -/
theorem instr_wellFormed (i : Instr) : i.wellFormed = true := by cases i <;> rfl

end Sys2Proof.Laws
end

