-- ==== Sys2Proof/Laws/Units.lean ====
section
/-! SUPPORT. For each shared operation of the units, what it can do: said once, to be cited and not unfolded. -/

namespace Sys2Proof.Machine

/-! ### CG -/

/-- Drawing: none at the cycle limit, else one draw (R151). -/
theorem CgRegs.generate_cases (x : CgRegs) :
    (255 ≤ x.count.toNat ∧ x.generate = none) ∨
      (x.count.toNat < 255 ∧ x.generate = some { x with state := lfsrStep x.state, count := x.count + 1#8 }) := by
  unfold CgRegs.generate CgRegs.draw
  by_cases h : 255 ≤ x.count.toNat
  · left; simp [h]
  · right; simp [h]; omega

/-- `n` draws: the outputs and the generator after them, in closed form. -/
theorem CgRegs.drawMany_eq (x : CgRegs) (n : Nat) :
    x.drawMany n =
      ((List.range n).map fun i => lfsrStep^[i + 1] x.state,
        { x with state := lfsrStep^[n] x.state, count := x.count + BitVec.ofNat 8 n }) := by
  induction n generalizing x with
  | zero => simp [CgRegs.drawMany]
  | succ n ih =>
    rw [CgRegs.drawMany, ih]
    simp only [CgRegs.draw, List.range_succ_eq_map, List.map_cons, List.map_map, Function.comp_def,
      Function.iterate_succ_apply, Function.iterate_zero, id]
    congr 2
    rw [BitVec.add_assoc, BitVec.add_comm (1#8), ← BitVec.ofNat_add]

@[simp] theorem CgRegs.drawMany_length (x : CgRegs) (n : Nat) : (x.drawMany n).1.length = n := by
  simp [CgRegs.drawMany_eq]

/-! ### ENC -/

/-- Preprocessing: none where the size or a length is wrong, else the captured registers (R167). -/
theorem EncRegs.preprocess_cases (x : EncRegs) (k : Nat) :
    (¬ (1 ≤ k ∧ k ≤ 16 ∧ x.equalLengths = true) ∧ x.preprocess k = none) ∨
      ((1 ≤ k ∧ k ≤ 16 ∧ x.equalLengths = true) ∧
        x.preprocess k =
          some
            { x with
              k := BitVec.ofNat 5 k
              n := x.nfrag
              m := if 0 < x.nfrag.toNat then x.lenOf 0 else 0#8
              ngen := BitVec.ofNat 8 (ceilDiv x.nfrag.toNat k)
              gen := 0#8
              valid := true }) := by
  unfold EncRegs.preprocess
  by_cases h : 1 ≤ k ∧ k ≤ 16 ∧ x.equalLengths = true
  · right; exact ⟨h, if_pos h⟩
  · left; exact ⟨h, if_neg h⟩

theorem EncRegs.equalLengths_iff (x : EncRegs) :
    x.equalLengths = true ↔ ∀ f < x.nfrag.toNat, x.lenOf f = x.lenOf 0 := by
  simp [EncRegs.equalLengths]

@[simp] theorem State.payload_length (s : State) (gi : Nat) (vec : List Byte) :
    (s.payload gi vec).length = s.enc.m.toNat := by
  simp [State.payload]

section Encode

variable (s : State) (gi j : Nat)

@[simp] theorem State.encodeOne_params : (s.encodeOne gi j).params = s.params := rfl
@[simp] theorem State.encodeOne_epoch : (s.encodeOne gi j).epoch = s.epoch := rfl
@[simp] theorem State.encodeOne_inbox : (s.encodeOne gi j).inbox = s.inbox := rfl
@[simp] theorem State.encodeOne_response : (s.encodeOne gi j).response = s.response := rfl
@[simp] theorem State.encodeOne_errlog : (s.encodeOne gi j).errlog = s.errlog := rfl
@[simp] theorem State.encodeOne_dec : (s.encodeOne gi j).dec = s.dec := rfl
@[simp] theorem State.encodeOne_cfg : (s.encodeOne gi j).cfg = s.cfg := rfl
@[simp] theorem State.encodeOne_sess : (s.encodeOne gi j).sess = s.sess := rfl
@[simp] theorem State.encodeOne_fc : (s.encodeOne gi j).fc = s.fc := rfl
theorem State.encodeOne_cg : (s.encodeOne gi j).cg = (s.cg.drawMany (s.enc.genSize gi)).2 := rfl
theorem State.encodeOne_enc :
    (s.encodeOne gi j).enc =
      { s.enc with
        cpkpre := s.enc.cpkpre.set j s.cg.state
        cpkpost := s.enc.cpkpost.set j (s.cg.drawMany (s.enc.genSize gi)).2.state } := rfl

/-- One coded packet is a run of bytes in its slot, vector first; no other byte changes (R168). -/
theorem State.readByte_encodeOne (sp : Space) (key : Nat) :
    (s.encodeOne gi j).readByte sp key =
      if sp = .cpk ∧ cellKey j 0 ≤ key ∧ key < cellKey j 0 + (s.enc.genSize gi + s.enc.m.toNat) then
        ((s.cg.drawMany (s.enc.genSize gi)).1 ++ s.payload gi (s.cg.drawMany (s.enc.genSize gi)).1).getD
          (key - cellKey j 0) 0#8
      else s.readByte sp key := by
  unfold State.encodeOne
  simp only [State.readByte_setEnc, State.readByte_setCg, State.readByte_writeRun, List.length_append,
    CgRegs.drawMany_length, State.payload_length]

/-- Coding packets leaves everything but CG, CPKPRE, CPKPOST and CPK as it is. -/
theorem State.encodeMany_frame (n : Nat) :
    let t := s.encodeMany gi j n
    t.params = s.params ∧ t.epoch = s.epoch ∧ t.inbox = s.inbox ∧ t.response = s.response ∧ t.errlog = s.errlog ∧
      t.dec = s.dec ∧ t.cfg = s.cfg ∧ t.sess = s.sess ∧ t.fc = s.fc ∧
      t.enc = { s.enc with cpkpre := t.enc.cpkpre, cpkpost := t.enc.cpkpost } ∧
      t.enc.cpkpre.length = s.enc.cpkpre.length ∧ t.enc.cpkpost.length = s.enc.cpkpost.length ∧
      ∀ sp ≠ .cpk, ∀ key, t.readByte sp key = s.readByte sp key := by
  induction n generalizing s j with
  | zero => simp [State.encodeMany]
  | succ n ih =>
    obtain ⟨h1, h2, h3, h4, h5, h6, h7, h8, h9, h10, h11, h12, h13⟩ := ih (s.encodeOne gi j) (j + 1)
    refine ⟨h1, h2, h3, h4, h5, h6, h7, h8, h9, ?_, ?_, ?_, fun sp hsp key => ?_⟩
    · exact h10
    · simpa [State.encodeMany, State.encodeOne_enc] using h11
    · simpa [State.encodeMany, State.encodeOne_enc] using h12
    · rw [State.encodeMany, h13 sp hsp key, State.readByte_encodeOne, if_neg (by simp [hsp])]

/-- The size of a generation does not change while its packets are coded. -/
theorem State.encodeMany_genSize (n gj : Nat) : (s.encodeMany gi j n).enc.genSize gj = s.enc.genSize gj := by
  have h := (State.encodeMany_frame s gi j n).2.2.2.2.2.2.2.2.2.1
  rw [h]
  rfl

/-- The generator after `n` packets has moved by all their draws. -/
theorem State.encodeMany_cg (n : Nat) :
    (s.encodeMany gi j n).cg = (s.cg.drawMany (n * s.enc.genSize gi)).2 := by
  induction n generalizing s j with
  | zero => simp [State.encodeMany, CgRegs.drawMany]
  | succ n ih =>
    have e : (s.encodeOne gi j).enc.genSize gi = s.enc.genSize gi := rfl
    rw [State.encodeMany, ih, e, State.encodeOne_cg]
    simp only [CgRegs.drawMany_eq, ← Function.iterate_add_apply, BitVec.add_assoc, ← BitVec.ofNat_add]
    rw [Nat.succ_mul, Nat.add_comm (s.enc.genSize gi)]

end Encode

/-! ### DEC -/

theorem findPivot_some {m : Matrix} {piv c r : Nat} (h : findPivot m piv c = some r) :
    piv ≤ r ∧ r < m.length ∧ entry (m.getD r []) c ≠ GF.zero := by
  unfold findPivot at h
  have h1 := List.find?_some h
  have h2 := List.mem_of_find?_eq_some h
  simp only [Bool.and_eq_true, decide_eq_true_eq, bne_iff_ne, ne_eq] at h1
  exact ⟨h1.1, List.mem_range.1 h2, h1.2⟩

@[simp] theorem normalize_length (row : Row) (c : Nat) : (normalize row c).length = row.length := by
  simp [normalize]

@[simp] theorem exchange_length (m : Matrix) (r piv : Nat) (p : Row) : (exchange m r piv p).length = m.length := by
  simp [exchange]

@[simp] theorem eliminate_length (row p : Row) (c : Nat) :
    (eliminate row p c).length = min row.length p.length := by
  simp [eliminate]

/-- The work on one column keeps the number of rows, their width, and that there are no more pivots than rows. -/
theorem reduceColumn_shape (c w : Nat) (mp : Matrix × Nat) (hw : ∀ row ∈ mp.1, row.length = w)
    (hp : mp.2 ≤ mp.1.length) :
    (reduceColumn c mp).1.length = mp.1.length ∧ (∀ row ∈ (reduceColumn c mp).1, row.length = w) ∧
      mp.2 ≤ (reduceColumn c mp).2 ∧ (reduceColumn c mp).2 ≤ mp.2 + 1 ∧ (reduceColumn c mp).2 ≤ mp.1.length := by
  unfold reduceColumn
  cases h : findPivot mp.1 mp.2 c with
  | none => exact ⟨rfl, hw, le_rfl, Nat.le_succ _, hp⟩
  | some r =>
    obtain ⟨h1, h2, -⟩ := findPivot_some h
    have hr : (mp.1.getD r []).length = w := by
      rw [List.getD_eq_getElem _ _ h2]; exact hw _ (List.getElem_mem h2)
    have hq : (mp.1.getD mp.2 []).length = w := by
      rw [List.getD_eq_getElem _ _ (by omega)]; exact hw _ (List.getElem_mem _)
    have hm : ∀ row ∈ exchange mp.1 r mp.2 (normalize (mp.1.getD r []) c), row.length = w := by
      intro row hrow
      unfold exchange at hrow
      rcases List.mem_or_eq_of_mem_set hrow with h | h
      · rcases List.mem_or_eq_of_mem_set h with h | h
        · exact hw row h
        · rw [h, hq]
      · rw [h, normalize_length, hr]
    refine ⟨by simp, fun row hrow => ?_, by simp, by simp, by simp only; omega⟩
    simp only [List.mem_mapIdx] at hrow
    obtain ⟨i, hi, rfl⟩ := hrow
    have := hm _ (List.getElem_mem hi)
    split
    · exact this
    · rw [eliminate_length, this, normalize_length, hr, Nat.min_self]

/-- The reduction keeps the number of rows and their width, and finds at most as many pivots as there are rows and
columns (R187). -/
theorem reduce_shape (k w : Nat) (m : Matrix) (hw : ∀ row ∈ m, row.length = w) :
    (reduce k m).1.length = m.length ∧ (∀ row ∈ (reduce k m).1, row.length = w) ∧
      (reduce k m).2 ≤ k ∧ (reduce k m).2 ≤ m.length := by
  induction k with
  | zero => exact ⟨rfl, hw, Nat.zero_le _, Nat.zero_le _⟩
  | succ k ih =>
    obtain ⟨h1, h2, h3, h4⟩ := ih
    have e : reduce (k + 1) m = reduceColumn k (reduce k m) := by
      simp [reduce, List.range_succ]
    obtain ⟨g1, g2, -, g4, g5⟩ := reduceColumn_shape k w (reduce k m) h2 (by omega)
    rw [e]
    exact ⟨by omega, g2, by omega, by omega⟩

/-- The accumulated set has one row for each accumulated packet, each of the configured width (R185). -/
theorem State.accumulated_shape (s : State) :
    s.accumulated.length = s.dec.rows.toNat ∧ ∀ row ∈ s.accumulated, row.length = s.dec.width := by
  constructor
  · simp [State.accumulated]
  · intro row hrow
    simp only [State.accumulated, List.mem_map] at hrow
    obtain ⟨r, -, rfl⟩ := hrow
    simp

@[simp] theorem State.classes_length (s : State) : s.classes.length = s.dec.rows.toNat := by
  unfold State.classes
  rw [List.length_map, (reduce_shape _ _ _ s.accumulated_shape.2).1, s.accumulated_shape.1]

/-- One row's class, from the set of its non-zero vector entries (R190): no row is both. -/
theorem classifyRow_exclusive (k : Nat) (row : Row) : ((classifyRow k row).succ && (classifyRow k row).red) = false := by
  unfold classifyRow
  split
  · rfl
  · split <;> rfl
  · rfl

/-- Writing result rows changes DRES alone. -/
theorem State.writeRows_frame (s : State) (r : Nat) (m : Matrix) :
    let t := s.writeRows r m
    t.params = s.params ∧ t.epoch = s.epoch ∧ t.inbox = s.inbox ∧ t.response = s.response ∧ t.errlog = s.errlog ∧
      t.cg = s.cg ∧ t.enc = s.enc ∧ t.dec = s.dec ∧ t.cfg = s.cfg ∧ t.sess = s.sess ∧ t.fc = s.fc ∧
      ∀ sp ≠ .dres, ∀ key, t.readByte sp key = s.readByte sp key := by
  induction m generalizing s r with
  | nil => simp [State.writeRows]
  | cons row m ih =>
    obtain ⟨h1, h2, h3, h4, h5, h6, h7, h8, h9, h10, h11, h12⟩ := ih (s.writeRun .dres (cellKey r 0) (row.map GF.byte)) (r + 1)
    refine ⟨h1, h2, h3, h4, h5, h6, h7, h8, h9, h10, h11, fun sp hsp key => ?_⟩
    rw [State.writeRows, h12 sp hsp key, State.readByte_writeRun, if_neg (by simp [hsp])]

/-- Result rows of one width, read back at any row and byte of DRES (R190). -/
theorem State.readByte_writeRows (s : State) (r w i j : Nat) (m : Matrix) (hw : ∀ row ∈ m, row.length = w)
    (h256 : w ≤ 256) (hj : j < 256) :
    (s.writeRows r m).readByte .dres (cellKey i j) =
      if r ≤ i ∧ i < r + m.length ∧ j < w then (entry (m.getD (i - r) []) j).byte
      else s.readByte .dres (cellKey i j) := by
  induction m generalizing s r with
  | nil => simp [State.writeRows]; omega
  | cons row m ih =>
    have hr : row.length = w := hw row List.mem_cons_self
    rw [State.writeRows, ih _ _ fun x hx => hw x (List.mem_cons_of_mem _ hx), State.readByte_writeRun]
    simp only [List.length_map, hr, List.length_cons, cellKey]
    by_cases h1 : r + 1 ≤ i ∧ i < r + 1 + m.length ∧ j < w
    · rw [if_pos h1, if_pos ⟨by omega, by omega, h1.2.2⟩]
      have e : i - r = (i - (r + 1)) + 1 := by omega
      rw [e, List.getD_cons_succ]
    · rw [if_neg h1]
      by_cases h2 : r = i ∧ j < w
      · obtain ⟨rfl, h2⟩ := h2
        rw [if_pos ⟨trivial, by omega, by omega⟩, if_pos ⟨le_rfl, by omega, h2⟩]
        have e : r * 256 + j - (r * 256 + 0) = j := by omega
        rw [e, Nat.sub_self, List.getD_cons_zero, entry, List.getD_eq_getElem _ _ (by rw [List.length_map]; omega),
          List.getElem_map, List.getD_eq_getElem _ _ (by omega)]
      · rw [if_neg (by rintro ⟨-, h3, h4⟩; omega), if_neg (by omega)]

/-! ### SC -/

/-- CFGSET's selector: one of three registers, or none (R215). -/
theorem CfgRegs.setField_cases (x : CfgRegs) (sel v : Byte) :
    (sel = 0#8 ∧ x.setField sel v = some { x with k := v }) ∨
      (sel = 1#8 ∧ x.setField sel v = some { x with red := v }) ∨
      (sel = 2#8 ∧ x.setField sel v = some { x with seed := v }) ∨ (2 < sel.toNat ∧ x.setField sel v = none) := by
  unfold CfgRegs.setField
  rcases h : sel.toNat with _ | _ | _ | n
  · left; exact ⟨BitVec.eq_of_toNat_eq h, rfl⟩
  · right; left; exact ⟨BitVec.eq_of_toNat_eq h, rfl⟩
  · right; right; left; exact ⟨BitVec.eq_of_toNat_eq h, rfl⟩
  · right; right; right; exact ⟨by omega, rfl⟩

/-- CPMD's selector: one of two arrays, or none (R107). -/
theorem EncRegs.packetMeta_cases (x : EncRegs) (j : Nat) (sel : Byte) :
    (sel = 0#8 ∧ x.packetMeta j sel = some (x.cpkpre.getD j 0#8)) ∨
      (sel = 1#8 ∧ x.packetMeta j sel = some (x.cpkpost.getD j 0#8)) ∨
      (1 < sel.toNat ∧ x.packetMeta j sel = none) := by
  unfold EncRegs.packetMeta
  rcases h : sel.toNat with _ | _ | n
  · left; exact ⟨BitVec.eq_of_toNat_eq h, rfl⟩
  · right; left; exact ⟨BitVec.eq_of_toNat_eq h, rfl⟩
  · right; right; exact ⟨by omega, rfl⟩

/-! ### FC -/

/-- Putting an output into FOUT: its bytes from index 0 and its length; nothing else (R244, R246, R247). -/
theorem State.putFout_eq (s : State) (bs : List Byte) :
    s.putFout bs = (s.writeRun .fout 0 bs).setFc { s.fc with foutn := BitVec.ofNat 9 bs.length } := rfl

theorem State.readByte_putFout (s : State) (bs : List Byte) (sp : Space) (key : Nat) :
    (s.putFout bs).readByte sp key =
      if sp = .fout ∧ key < bs.length then bs.getD key 0#8 else s.readByte sp key := by
  rw [State.putFout_eq, State.readByte_setFc, State.readByte_writeRun]
  simp

@[simp] theorem State.finBytes_length (s : State) (n : Nat) : (s.finBytes n).length = n := by
  simp [State.finBytes]

/-- The checks on a frame's content, in their order (R251). -/
theorem checkContent_cases (d : List Byte) :
    (d = [] ∧ checkContent d = .drop 3) ∨ (d.length = 1 ∧ checkContent d = .drop 4) ∨
      ∃ crc len payload, d = crc :: len :: payload ∧
        ((len.toNat ≠ payload.length ∧ checkContent d = .drop 5) ∨
          (len.toNat = payload.length ∧ crc8 payload ≠ crc ∧ checkContent d = .drop 6) ∨
          (len.toNat = payload.length ∧ crc8 payload = crc ∧ checkContent d = .deliver payload)) := by
  match d with
  | [] => exact .inl ⟨rfl, rfl⟩
  | [x] => exact .inr (.inl ⟨rfl, rfl⟩)
  | crc :: len :: payload =>
    refine .inr (.inr ⟨crc, len, payload, rfl, ?_⟩)
    unfold checkContent
    by_cases h1 : len.toNat = payload.length
    · by_cases h2 : crc8 payload = crc
      · exact .inr (.inr ⟨h1, h2, by simp [h1, h2]⟩)
      · exact .inr (.inl ⟨h1, h2, by simp [h1, h2]⟩)
    · exact .inl ⟨h1, by simp [h1]⟩

/-- The checks on a complete frame, in their order (R251). -/
theorem checkFrame_cases (buf : List Byte) :
    (buf.length < 3 ∧ checkFrame buf = .drop 1) ∨
      (3 ≤ buf.length ∧ (buf.getD 1 0#8).toNat + 3 < buf.length ∧ checkFrame buf = .drop 2) ∨
      (3 ≤ buf.length ∧ buf.length ≤ (buf.getD 1 0#8).toNat + 3 ∧
        checkFrame buf = checkContent (cobsDecode ((buf.drop 2).take (buf.length - 3)))) := by
  unfold checkFrame
  by_cases h1 : buf.length < 3
  · exact .inl ⟨h1, if_pos h1⟩
  · by_cases h2 : (buf.getD 1 0#8).toNat + 3 < buf.length
    · exact .inr (.inl ⟨by omega, h2, by rw [if_neg h1, if_pos h2]⟩)
    · exact .inr (.inr ⟨by omega, by omega, by rw [if_neg h1, if_neg h2]⟩)

/-- A drop of a frame changes three codec registers, ERRLOG and the response (R250, R272). -/
theorem State.dropFrame_settle (s : State) (cause : Nat) :
    (s.dropFrame cause).settle =
      (s.setFc { s.fc with rxsync := false, rxn := 0#9, frCause := BitVec.ofNat 3 cause }).takeError .framingError := rfl

/-- A delivery writes RXPAY from index 0, four codec registers and the response (R251). -/
theorem State.deliver_settle (s : State) (payload : List Byte) :
    (s.deliver payload).settle =
      ((s.writeRun .rxpay 0 payload).setFc
        { s.fc with
          rxsync := false, rxn := 0#9, rxpayn := BitVec.ofNat 8 payload.length, frCause := 0#3 }).answer 1 := rfl

/-- The decoder's loop never gives more bytes than it has so far plus one less than the input that remains, where it
takes the whole input at once (R245). -/
theorem cobsDecodeLoop_length (fuel : Nat) (e out : List Byte) (h : e ≠ []) :
    (cobsDecodeLoop fuel e out).length < out.length + e.length := by
  induction fuel generalizing e out with
  | zero => cases e <;> simp_all [cobsDecodeLoop]
  | succ fuel ih =>
    match e, h with
    | d :: rest, _ =>
      unfold cobsDecodeLoop
      split
      · simp
      · next hd =>
        push Not at hd
        have hd0 : 0 < d.toNat := by
          rcases Nat.eq_zero_or_pos d.toNat with h0 | h0
          · exact absurd (BitVec.eq_of_toNat_eq h0) hd.1
          · exact h0
        by_cases ht : rest.drop (d.toNat - 1) = []
        · simp only [ht]
          cases fuel <;> simp [cobsDecodeLoop]
        · have hl : d.toNat - 1 < rest.length := by
            by_contra hc; exact ht (List.drop_eq_nil_of_le (by omega))
          refine lt_of_lt_of_le (ih _ _ ht) ?_
          split <;> simp <;> omega

/-- The decoded sequence is shorter than the input (R245). -/
theorem cobsDecode_length (e : List Byte) : (cobsDecode e).length ≤ e.length - 1 := by
  unfold cobsDecode
  by_cases h : e = []
  · subst h; simp [cobsDecodeLoop]
  · have := cobsDecodeLoop_length e.length e [] h
    simp only [List.length_nil] at this
    omega

/-- One more input byte is one more output byte, but for the slot that a full run opens. -/
theorem CobsState.push_length (x : CobsState) (b : Byte) :
    x.out.length + 1 ≤ (x.push b).out.length ∧ (x.push b).out.length ≤ x.out.length + 2 := by
  unfold CobsState.push
  split
  · simp [CobsState.newSlot]
  · dsimp only
    split <;> simp [CobsState.newSlot]

end Sys2Proof.Machine
end

