-- ==== Sys2Proof/Tests/Slice0.lean ====
section
/-! SUPPORT. The model's own tests: words that no check may accept, the decoding of every command by a word written out
from its encoding, one step at a time the examples of the spec, and for every statement with hypotheses a concrete case
that meets them. Expected values are the spec's (`95_test_vectors.md`, named V in the comments, and the examples of the
rules), not the model's. -/

open Sys2Proof Sys2Proof.Machine Sys2Proof.Certificates

-- One theorem after another: elaborated side by side, the many small kernel checks would each hold a thread.
set_option Elab.async false

namespace Sys2Proof.Tests

/-! ### What the checks refuse (30_encoding.md R82, R85; V50) -/

theorem test_legalWord_refuses_unassigned_opcode : legalWord 0x02000000#32 = false := by decide +kernel
theorem test_legalWord_refuses_reserved_in_z : legalWord 0x00010000#32 = false := by decide +kernel
theorem test_legalWord_refuses_reserved_in_a : legalWord 0x01030100#32 = false := by decide +kernel
theorem test_legalWord_refuses_reserved_in_ab : legalWord 0x3053CA01#32 = false := by decide +kernel
theorem test_admits_refuses_a_in_z : Format.z.admits (1#8, 0#8, 0#8) = false := by decide +kernel
theorem test_admits_refuses_b_in_a : Format.a.admits (3#8, 1#8, 0#8) = false := by decide +kernel
theorem test_admits_refuses_c_in_ab : Format.ab.admits (3#8, 1#8, 1#8) = false := by decide +kernel
theorem test_decode_names_unassigned_opcode : decode 0xFF000000#32 = .error (.unassignedOpcode 0xFF#8) := by
  decide +kernel
theorem test_decode_names_reserved_field : decode 0x42000100#32 = .error (.reservedField 0x42#8) := by decide +kernel

/-! ### Decoding, one word for each command (R81, R84) -/

theorem test_decode_nop : decode 0x00000000#32 = .ok .nop := by decide +kernel
theorem test_decode_rdreg : decode 0x01000000#32 = .ok (.rdreg 0x00#8) := by decide +kernel
theorem test_decode_frcnt : decode 0x10030000#32 = .ok (.frcnt 3#8) := by decide +kernel
theorem test_decode_frlen : decode 0x11000400#32 = .ok (.frlen 0#8 4#8) := by decide +kernel
theorem test_decode_frwr : decode 0x120200FF#32 = .ok (.frwr 2#8 0#8 0xFF#8) := by decide +kernel
theorem test_decode_frrd : decode 0x13020000#32 = .ok (.frrd 2#8 0#8) := by decide +kernel
theorem test_decode_cprd : decode 0x14000300#32 = .ok (.cprd 0#8 3#8) := by decide +kernel
theorem test_decode_cpmd : decode 0x15010000#32 = .ok (.cpmd 1#8 0#8) := by decide +kernel
theorem test_decode_dpcnt : decode 0x16040000#32 = .ok (.dpcnt 4#8) := by decide +kernel
theorem test_decode_dpwr : decode 0x17020389#32 = .ok (.dpwr 2#8 3#8 0x89#8) := by decide +kernel
theorem test_decode_dprd : decode 0x18020300#32 = .ok (.dprd 2#8 3#8) := by decide +kernel
theorem test_decode_drrd : decode 0x19010300#32 = .ok (.drrd 1#8 3#8) := by decide +kernel
theorem test_decode_drfl : decode 0x1A020000#32 = .ok (.drfl 2#8) := by decide +kernel
theorem test_decode_dsrd : decode 0x1B020000#32 = .ok (.dsrd 2#8) := by decide +kernel
theorem test_decode_fiwr : decode 0x1C001200#32 = .ok (.fiwr 0#8 0x12#8) := by decide +kernel
theorem test_decode_fird : decode 0x1D070000#32 = .ok (.fird 7#8) := by decide +kernel
theorem test_decode_ford : decode 0x1E010100#32 = .ok (.ford 1#8 1#8) := by decide +kernel
theorem test_decode_rprd : decode 0x1F010000#32 = .ok (.rprd 1#8) := by decide +kernel
theorem test_decode_gfadd : decode 0x3053CA00#32 = .ok (.gfadd 0x53#8 0xCA#8) := by decide +kernel
theorem test_decode_gfsub : decode 0x3153CA00#32 = .ok (.gfsub 0x53#8 0xCA#8) := by decide +kernel
theorem test_decode_gfmul : decode 0x3253CA00#32 = .ok (.gfmul 0x53#8 0xCA#8) := by decide +kernel
theorem test_decode_gfdiv : decode 0x3353CA00#32 = .ok (.gfdiv 0x53#8 0xCA#8) := by decide +kernel
theorem test_decode_gfpow : decode 0x34020800#32 = .ok (.gfpow 2#8 8#8) := by decide +kernel
theorem test_decode_lfseed : decode 0x40120000#32 = .ok (.lfseed 0x12#8) := by decide +kernel
theorem test_decode_lfreset : decode 0x41000000#32 = .ok .lfreset := by decide +kernel
theorem test_decode_lfgen : decode 0x42000000#32 = .ok .lfgen := by decide +kernel
theorem test_decode_encprep : decode 0x50030000#32 = .ok (.encprep 3#8) := by decide +kernel
theorem test_decode_encpre : decode 0x51000100#32 = .ok (.encpre 0#8 1#8) := by decide +kernel
theorem test_decode_deccfg : decode 0x60030400#32 = .ok (.deccfg 3#8 4#8) := by decide +kernel
theorem test_decode_decrun : decode 0x61000000#32 = .ok .decrun := by decide +kernel
theorem test_decode_decgen : decode 0x62000000#32 = .ok .decgen := by decide +kernel
theorem test_decode_cfgset : decode 0x70021200#32 = .ok (.cfgset 2#8 0x12#8) := by decide +kernel
theorem test_decode_cfgload : decode 0x71000000#32 = .ok .cfgload := by decide +kernel
theorem test_decode_sstart : decode 0x72000000#32 = .ok .sstart := by decide +kernel
theorem test_decode_sfetch : decode 0x73000000#32 = .ok .sfetch := by decide +kernel
theorem test_decode_sadv : decode 0x74000000#32 = .ok .sadv := by decide +kernel
theorem test_decode_sstop : decode 0x75000000#32 = .ok .sstop := by decide +kernel
theorem test_decode_sgenc : decode 0x76000000#32 = .ok .sgenc := by decide +kernel
theorem test_decode_slast : decode 0x77000000#32 = .ok .slast := by decide +kernel
theorem test_decode_sdone : decode 0x78000000#32 = .ok .sdone := by decide +kernel
theorem test_decode_crc8 : decode 0x80020000#32 = .ok (.crc8 2#8) := by decide +kernel
theorem test_decode_cobsenc : decode 0x81040000#32 = .ok (.cobsenc 4#8) := by decide +kernel
theorem test_decode_cobsdec : decode 0x82050000#32 = .ok (.cobsdec 5#8) := by decide +kernel
theorem test_decode_frbuild : decode 0x83020000#32 = .ok (.frbuild 2#8) := by decide +kernel
theorem test_decode_rxbyte : decode 0x84FF0000#32 = .ok (.rxbyte 0xFF#8) := by decide +kernel

/-- `decodeTableWord` on a row's word, and on a word that is no command. -/
theorem test_decodeTableWord :
    decodeTableWord 32 0x51000100 = some (.encpre 0#8 1#8) ∧ decodeTableWord 32 0x20000000 = none := by decide +kernel

/-! ### Small states -/

/-- A small instance. -/
def small : Params := { fMax := 4, mMax := 4, cMax := 6, pMax := 6 }

/-- Reset of the small instance. -/
def base : State := State.resetOf small 0

/-- `(row, bytes)` pairs as a two-dimensional memory. -/
def rowsOf (rows : List (List Byte)) : Memory :=
  (rows.zipIdx.map fun x => x.1.zipIdx.map fun y => (cellKey x.2 y.2, y.1)).flatten

/-- Bytes as a one-dimensional memory. -/
def bytesAt (bs : List Byte) : Memory := bs.zipIdx.map fun x => (x.2, x.1)

/-- V20's three staged fragments of four symbols, with the generator seeded. -/
def staged : State :=
  ((base.setEnc { base.enc with nfrag := 3#8, srclen := [4#8, 4#8, 4#8, 0#8] }).setCg
      { seed := 0x12#8, state := 0x12#8, count := 0#8 }).setMem
    { base.mem with src := rowsOf [[0x01, 0x02, 0x03, 0x04], [0x10, 0x20, 0x30, 0x40], [0xFF, 0x00, 0x55, 0xAA]] }

/-- `staged` after `ENCPREP 3`, as V20 gives the registers. -/
def prepared : State :=
  staged.setEnc { staged.enc with valid := true, k := 3#5, m := 4#8, n := 3#8, ngen := 1#8, gen := 0#8 }

/-- V20's packets 0 and 1 in CPK. -/
def coded : State :=
  (prepared.setEnc
      { prepared.enc with
        cpkn := 2#8, cpkg := 3#5, cpkm := 4#8,
        cpkpre := [0x12, 0xA2, 0, 0, 0, 0], cpkpost := [0xA2, 0xD4, 0, 0, 0, 0] }).setMem
    { prepared.mem with
      cpk := rowsOf [[0x89, 0x44, 0xA2, 0xAA, 0x67, 0xD7, 0xD4], [0x51, 0xA8, 0xD4, 0xC0, 0x06, 0x44, 0x8E]] }

/-- V20's fragments under a configuration that V30 loads. -/
def configured : State := staged.setCfg { k := 3#8, red := 1#8, seed := 0x12#8, loaded := true }

/-- V30 after its step 3: the session has started. -/
def active : State :=
  (prepared.setCfg { k := 3#8, red := 1#8, seed := 0x12#8, loaded := true }).setSess
    { SessRegs.absent with
      active := true, k := 3#5, red := 1#8, seed := 0x12#8, genCount := 1#8, totalFrags := 3#8, fsize := 4#8 }

/-- V30 after its step 10: the fourth packet has been fetched. -/
def complete : State := active.setSess { active.sess with curFrag := 4#8 }

/-- A decoder of shape 3 by 4 with the given packets accumulated. -/
def loadedWith (rows : List (List Byte)) : State :=
  (base.setDec { base.dec with k := 3#5, m := 4#8, rows := BitVec.ofNat 8 rows.length }).setMem
    { base.mem with dpkt := rowsOf rows }

/-- V20's four packets accumulated (V21). -/
def loaded : State :=
  loadedWith
    [ [0x89, 0x44, 0xA2, 0xAA, 0x67, 0xD7, 0xD4], [0x51, 0xA8, 0xD4, 0xC0, 0x06, 0x44, 0x8E],
      [0x6A, 0xB5, 0xDA, 0xA5, 0xF7, 0x32, 0x93], [0x6D, 0x36, 0x1B, 0xD6, 0x54, 0x2A, 0x00] ]

/-- V21's result. -/
def decoded : State :=
  (loaded.setDec
      { loaded.dec with
        resRows := 4#8, rank := 3#5, nsucc := 3#8, nred := 1#8, nsel := 3#8,
        succ := [true, true, true, false, false, false], red := [false, false, false, true, false, false],
        piv := [0, 1, 2, 0, 0, 0], sel := [0, 1, 2, 0, 0, 0] }).setMem
    { loaded.mem with
      dres := rowsOf
        [ [0x01, 0x00, 0x00, 0x01, 0x02, 0x03, 0x04], [0x00, 0x01, 0x00, 0x10, 0x20, 0x30, 0x40],
          [0x00, 0x00, 0x01, 0xFF, 0x00, 0x55, 0xAA], [0, 0, 0, 0, 0, 0, 0] ] }

/-- The given bytes in FIN. -/
def withFin (bs : List Byte) : State := base.setMem { base.mem with fin := bytesAt bs }

/-- V43's frame in FOUT. -/
def framed : State :=
  (base.setFc { base.fc with foutn := 8#9 }).setMem
    { base.mem with fout := bytesAt [0xFF, 0x05, 0x05, 0xD6, 0x02, 0x12, 0x34, 0x00] }

/-- The reassembler synchronised with the given bytes buffered, after an earlier delivery of `EE` (V47). -/
def receiving (bs : List Byte) : State :=
  (base.setFc { base.fc with rxsync := true, rxn := BitVec.ofNat 9 bs.length, rxpayn := 1#8 }).setMem
    { base.mem with rxbuf := bytesAt bs, rxpay := [(0, 0xEE)] }

/-- The reassembler with a full buffer (V47, last row): `FF`, then 257 times `01`. -/
def fullBuffer : State := receiving (0xFF#8 :: List.replicate 257 0x01#8)

/-- The response word of a command. -/
def respOf (i : Instr) (s : State) : Option ResponseWord := (after i s).response

/-- The host presents one command word. -/
def presenting (cw : CommandWord) : State := base.setInbox [.command cw]

/-- `Inv` as a check that evaluates. -/
def checkInv (s : State) : Bool :=
  decide s.params.Ok && !s.errlog.getLsbD 0 &&
  (decide (s.enc.nfrag.toNat ≤ s.params.fMax ∧ s.enc.srclen.length = s.params.fMax ∧
      (∀ x ∈ s.enc.srclen, x.toNat ≤ s.params.mMax) ∧ s.enc.k.toNat ≤ 16 ∧ s.enc.m.toNat ≤ s.params.mMax ∧
      s.enc.n.toNat ≤ s.params.fMax ∧ s.enc.ngen.toNat ≤ s.params.fMax) &&
    decide ((s.enc.valid = true → 1 ≤ s.enc.k.toNat ∧ s.enc.ngen.toNat = ceilDiv s.enc.n.toNat s.enc.k.toNat) ∧
      s.enc.cpkn.toNat ≤ s.params.cMax ∧ s.enc.cpkg.toNat ≤ 16 ∧ s.enc.cpkm.toNat ≤ s.params.mMax ∧
      s.enc.cpkpre.length = s.params.cMax ∧ s.enc.cpkpost.length = s.params.cMax)) &&
  (decide (s.dec.k.toNat ≤ 16 ∧ s.dec.m.toNat ≤ s.params.mMax ∧ s.dec.rows.toNat ≤ s.params.pMax ∧
      s.dec.resRows.toNat ≤ s.params.pMax ∧ s.dec.rank.toNat ≤ s.dec.k.toNat ∧
      s.dec.rank.toNat ≤ s.dec.resRows.toNat ∧ s.dec.nsucc.toNat + s.dec.nred.toNat ≤ s.dec.resRows.toNat) &&
    decide (s.dec.nsel.toNat ≤ s.dec.resRows.toNat ∧
      (∀ r < s.dec.resRows.toNat, ¬ (s.dec.succ.getD r false = true ∧ s.dec.red.getD r false = true)) ∧
      s.dec.succ.length = s.params.pMax ∧ s.dec.red.length = s.params.pMax ∧ s.dec.piv.length = s.params.pMax ∧
      s.dec.sel.length = s.params.pMax)) &&
  decide ((s.sess.active = true → s.enc.valid = true ∧ 1 ≤ s.sess.k.toNat) ∧
    (s.sess.active = false → s.sess = SessRegs.absent) ∧ s.sess.k.toNat ≤ 16 ∧
    s.sess.genCount.toNat ≤ s.params.fMax ∧ s.sess.totalFrags.toNat ≤ s.params.fMax ∧
    s.sess.fsize.toNat ≤ s.params.mMax) &&
  decide (s.fc.foutn.toNat ≤ 258 ∧ s.fc.rxn.toNat ≤ 258 ∧ s.fc.rxpayn.toNat ≤ 252 ∧
    (s.fc.rxsync = false → s.fc.rxn = 0#9) ∧
    (s.fc.rxsync = true → 1 ≤ s.fc.rxn.toNat ∧ Memory.byteAt s.mem.rxbuf 0 = some 0xFF#8)) &&
  [Space.src, .cpk, .dpkt, .dres, .fin, .fout, .rxbuf, .rxpay].all fun sp =>
    Memory.wf (s.mem.get sp) && (s.mem.get sp).all fun c => Space.inShape s.params sp c.1

theorem inv_of_check {s : State} (h : checkInv s = true) : s.Inv := by
  simp only [checkInv, Bool.and_eq_true, decide_eq_true_eq, Bool.not_eq_true'] at h
  obtain ⟨⟨⟨⟨⟨⟨hp, he⟩, ⟨a1, a2, a3, a4, a5, a6, a7⟩, a8, a9, a10, a11, a12, a13⟩,
    ⟨b1, b2, b3, b4, b5, b6, b7⟩, b8, b9, b10, b11, b12, b13⟩, c1, c2, c3, c4, c5, c6⟩,
    d1, d2, d3, d4, d5⟩, hm⟩ := h
  refine ⟨hp, he, ⟨a1, a2, a3, a4, a5, a6, a7, a8, a9, a10, a11, a12, a13⟩,
    ⟨b1, b2, b3, b4, b5, b6, b7, b8, b9, b10, b11, b12, b13⟩, ⟨c1, c2, c3, c4, c5, c6⟩,
    ⟨d1, d2, d3, d4, fun hs => ⟨(d5 hs).1, ?_⟩⟩, fun sp => ?_⟩
  · have := (d5 hs).2
    simp [State.readByte, Memories.get, this]
  · have := List.all_eq_true.1 hm sp (by cases sp <;> simp)
    simpa using this

theorem base_inv : base.Inv := inv_of_check (by decide +kernel)
theorem prepared_inv : prepared.Inv := inv_of_check (by decide +kernel)
theorem active_inv : active.Inv := inv_of_check (by decide +kernel)
theorem loaded_inv : loaded.Inv := inv_of_check (by decide +kernel)
theorem decoded_inv : decoded.Inv := inv_of_check (by decide +kernel)
theorem receiving_inv : (receiving [0xFF, 0x05, 0x05, 0xD6, 0x02, 0x12, 0x34]).Inv := inv_of_check (by decide +kernel)

/-! ### System and access commands (examples of R101 to R118) -/

theorem test_nop : respOf .nop base = some 0x00000000#32 := by decide +kernel
theorem test_rdreg_field_poly : respOf (.rdreg 0x00#8) base = some 0x0000011D#32 := by decide +kernel
theorem test_rdreg_unassigned : respOf (.rdreg 0x04#8) base = some 0x01000000#32 := by decide +kernel
theorem test_frcnt : (after (.frcnt 3#8) base).enc.nfrag = 3#8 := by decide +kernel
theorem test_frcnt_too_many : after (.frcnt 5#8) base = errAfter base 1 := by decide +kernel
theorem test_frlen : (after (.frlen 0#8 4#8) base).enc.srclen = [4#8, 0#8, 0#8, 0#8] := by decide +kernel
theorem test_frlen_too_long : respOf (.frlen 0#8 5#8) base = some 0x01000000#32 := by decide +kernel
theorem test_frwr : (after (.frwr 2#8 0#8 0xFF#8) base).mem.src = [(512, 0xFF#8)] := by decide +kernel
theorem test_frwr_last_row : respOf (.frwr 4#8 0#8 0xFF#8) base = some 0x01000000#32 := by decide +kernel
theorem test_frrd : respOf (.frrd 2#8 0#8) staged = some 0x000000FF#32 := by decide +kernel
theorem test_cprd : respOf (.cprd 0#8 3#8) coded = some 0x000000AA#32 := by decide +kernel
theorem test_cprd_beyond : respOf (.cprd 2#8 0#8) coded = some 0x01000000#32 := by decide +kernel
theorem test_cpmd : respOf (.cpmd 1#8 0#8) coded = some 0x000000A2#32 := by decide +kernel
theorem test_cpmd_after : respOf (.cpmd 1#8 1#8) coded = some 0x000000D4#32 := by decide +kernel
theorem test_dpcnt : (after (.dpcnt 4#8) base).dec.rows = 4#8 := by decide +kernel
theorem test_dpwr : (after (.dpwr 0#8 0#8 0x90#8) loaded).mem.dpkt.head? = some (0, 0x90#8) := by decide +kernel
theorem test_dpwr_unconfigured : respOf (.dpwr 0#8 0#8 0x89#8) base = some 0x01000000#32 := by decide +kernel
theorem test_dprd : respOf (.dprd 0#8 0#8) loaded = some 0x00000089#32 := by decide +kernel
theorem test_drrd : respOf (.drrd 1#8 3#8) decoded = some 0x00000010#32 := by decide +kernel
theorem test_drfl_success : respOf (.drfl 2#8) decoded = some 0x00000201#32 := by decide +kernel
theorem test_drfl_redundant : respOf (.drfl 3#8) decoded = some 0x00000002#32 := by decide +kernel
theorem test_dsrd : respOf (.dsrd 2#8) decoded = some 0x00000002#32 := by decide +kernel
theorem test_dsrd_beyond : respOf (.dsrd 3#8) decoded = some 0x01000000#32 := by decide +kernel
theorem test_fiwr : (after (.fiwr 0#8 0x12#8) base).mem.fin = [(0, 0x12#8)] := by decide +kernel
theorem test_fiwr_255 : respOf (.fiwr 255#8 0#8) base = some 0x01000000#32 := by decide +kernel
theorem test_fird : respOf (.fird 0#8) (withFin [0x12]) = some 0x00000012#32 := by decide +kernel
theorem test_ford : respOf (.ford 0#8 3#8) framed = some 0x000000D6#32 := by decide +kernel
theorem test_ford_beyond : respOf (.ford 0#8 8#8) framed = some 0x01000000#32 := by decide +kernel
theorem test_rprd : respOf (.rprd 0#8) (receiving [0xFF]) = some 0x000000EE#32 := by decide +kernel

/-! ### FA (examples of R136 to R140) -/

theorem test_gfadd : respOf (.gfadd 0x53#8 0xCA#8) base = some 0x00000099#32 := by decide +kernel
theorem test_gfsub : respOf (.gfsub 0x53#8 0xCA#8) base = some 0x00000099#32 := by decide +kernel
theorem test_gfmul : respOf (.gfmul 0x53#8 0xCA#8) base = some 0x0000008F#32 := by decide +kernel
theorem test_gfmul_first_reduction : respOf (.gfmul 0x02#8 0x80#8) base = some 0x0000001D#32 := by decide +kernel
theorem test_gfdiv : respOf (.gfdiv 0x53#8 0xCA#8) base = some 0x0000006D#32 := by decide +kernel
theorem test_gfdiv_zero_by_zero : after (.gfdiv 0#8 0#8) base = errAfter base 3 := by decide +kernel
theorem test_gfpow : respOf (.gfpow 0x02#8 8#8) base = some 0x0000001D#32 := by decide +kernel
theorem test_gfpow_zero_exponent : respOf (.gfpow 0x00#8 0#8) base = some 0x00000001#32 := by decide +kernel

/-! ### CG (R153 to R155) -/

theorem test_lfseed : (after (.lfseed 0x12#8) base).cg = { seed := 0x12#8, state := 0x12#8, count := 0#8 } := by
  decide +kernel
theorem test_lfreset :
    (after .lfreset (base.setCg { seed := 0x12#8, state := 0x44#8, count := 2#8 })).cg =
      { seed := 0x12#8, state := 0x12#8, count := 0#8 } := by decide +kernel
theorem test_lfgen : respOf .lfgen staged = some 0x00000089#32 := by decide +kernel
theorem test_lfgen_exhausted :
    respOf .lfgen (base.setCg { seed := 0x12#8, state := 0x44#8, count := 255#8 }) = some 0x02000000#32 := by decide +kernel

/-! ### ENC (V20) -/

theorem test_encprep : after (.encprep 3#8) staged = okAfter prepared 1 := by decide +kernel
theorem test_encprep_17 : after (.encprep 17#8) staged = errAfter staged 1 := by decide +kernel
theorem test_encpre_registers :
    respOf (.encpre 0#8 1#8) prepared = some 0x00000004#32 ∧
      (after (.encpre 0#8 1#8) prepared).cg = { seed := 0x12#8, state := 0x1B#8, count := 12#8 } := by decide +kernel
theorem test_encpre_packets :
    (after (.encpre 0#8 1#8) prepared).mem.cpk =
      rowsOf
        [ [0x89, 0x44, 0xA2, 0xAA, 0x67, 0xD7, 0xD4], [0x51, 0xA8, 0xD4, 0xC0, 0x06, 0x44, 0x8E],
          [0x6A, 0xB5, 0xDA, 0xA5, 0xF7, 0x32, 0x93], [0x6D, 0x36, 0x1B, 0xD6, 0x54, 0x2A, 0x00] ] := by decide +kernel

/-! ### DEC (V21, V29) -/

theorem test_deccfg : (after (.deccfg 3#8 4#8) decoded).dec.resRows = 0#8 := by decide +kernel
theorem test_deccfg_zero : respOf (.deccfg 0#8 4#8) base = some 0x01000000#32 := by decide +kernel
theorem test_decrun : respOf .decrun loaded = some 0x00000003#32 := by decide +kernel
theorem test_decrun_unconfigured : respOf .decrun base = some 0x01000000#32 := by decide +kernel
theorem test_decgen : after .decgen loaded = okAfter decoded 3 := by decide +kernel
/-- V29: a skipped column, a normalisation and an exchange. -/
theorem test_decgen_skips_a_column :
    (after .decgen
        (loadedWith
          [ [0x00, 0x00, 0x02, 0x02, 0x04, 0x06, 0x08], [0x00, 0x03, 0x00, 0x03, 0x06, 0x05, 0x0C],
            [0x00, 0x00, 0x00, 0x01, 0x01, 0x01, 0x01] ])).mem.dres =
      rowsOf
        [ [0x00, 0x01, 0x00, 0x01, 0x02, 0x03, 0x04], [0x00, 0x00, 0x01, 0x01, 0x02, 0x03, 0x04],
          [0x00, 0x00, 0x00, 0x01, 0x01, 0x01, 0x01] ] := by decide +kernel

/-! ### SC (V30) -/

theorem test_cfgset : (after (.cfgset 1#8 1#8) base).cfg.red = 1#8 := by decide +kernel
theorem test_cfgset_selector : respOf (.cfgset 3#8 0#8) base = some 0x01000000#32 := by decide +kernel
theorem test_cfgload : (after .cfgload base).cfg.loaded = true := by decide +kernel
theorem test_sstart : after .sstart configured = okAfter active 1 := by decide +kernel
theorem test_sstart_twice : after .sstart active = errAfter active 1 := by decide +kernel
theorem test_sfetch_packet :
    (after .sfetch active).mem.cpk = rowsOf [[0x89, 0x44, 0xA2, 0xAA, 0x67, 0xD7, 0xD4]] ∧
      (after .sfetch active).sess.metaPost = 0xA2#8 := by decide +kernel
theorem test_sfetch_complete : after .sfetch complete = errAfter complete 1 := by decide +kernel
theorem test_sadv : respOf .sadv complete = some 0x00000001#32 ∧ (after .sadv complete).enc.gen = 1#8 := by decide +kernel
theorem test_sstop : (after .sstop complete).sess = SessRegs.absent ∧ (after .sstop complete).enc.nfrag = 0#8 := by
  decide +kernel
theorem test_sgenc_not_yet : respOf .sgenc active = some 0x00000000#32 := by decide +kernel
theorem test_sgenc_complete : respOf .sgenc complete = some 0x00000001#32 := by decide +kernel
theorem test_slast : respOf .slast active = some 0x00000001#32 := by decide +kernel
theorem test_sdone : respOf .sdone complete = some 0x00000001#32 := by decide +kernel
theorem test_sdone_no_session : respOf .sdone base = some 0x01000000#32 := by decide +kernel

/-! ### FC (V40 to V47) -/

theorem test_crc8 : respOf (.crc8 2#8) (withFin [0x12, 0x34]) = some 0x000000D6#32 := by decide +kernel
theorem test_crc8_empty : respOf (.crc8 0#8) base = some 0x000000FF#32 := by decide +kernel
theorem test_cobsenc :
    (after (.cobsenc 4#8) (withFin [0x11, 0x22, 0x00, 0x33])).mem.fout = bytesAt [0x03, 0x11, 0x22, 0x02, 0x33] := by
  decide +kernel
theorem test_cobsenc_255 : respOf (.cobsenc 255#8) base = some 0x01000000#32 := by decide +kernel
theorem test_cobsdec :
    (after (.cobsdec 5#8) (withFin [0x03, 0x11, 0x22, 0x02, 0x33])).mem.fout = bytesAt [0x11, 0x22, 0x00, 0x33] := by
  decide +kernel
theorem test_cobsdec_malformed :
    respOf (.cobsdec 2#8) (withFin [0x03, 0x01]) = some 0x04000000#32 ∧
      (after (.cobsdec 0#8) framed).fc.foutn = 0#9 := by decide +kernel
theorem test_frbuild :
    (after (.frbuild 2#8) (withFin [0x12, 0x34])).mem.fout = framed.mem.fout ∧
      respOf (.frbuild 2#8) (withFin [0x12, 0x34]) = some 0x00000008#32 := by decide +kernel
theorem test_frbuild_too_long : respOf (.frbuild 253#8) base = some 0x01000000#32 := by decide +kernel
theorem test_rxbyte_delivers :
    respOf (.rxbyte 0#8) (receiving [0xFF, 0x05, 0x05, 0xD6, 0x02, 0x12, 0x34]) = some 0x00000001#32 ∧
      (after (.rxbyte 0#8) (receiving [0xFF, 0x05, 0x05, 0xD6, 0x02, 0x12, 0x34])).mem.rxpay =
        bytesAt [0x12, 0x34] := by decide +kernel
theorem test_rxbyte_drops :
    respOf (.rxbyte 0#8) (receiving [0xFF, 0x05, 0x05, 0xD7, 0x02, 0x12, 0x34]) = some 0x04000000#32 ∧
      (after (.rxbyte 0#8) (receiving [0xFF, 0x05, 0x05, 0xD7, 0x02, 0x12, 0x34])).fc.frCause = 6#3 := by
  decide +kernel

/-! ### The step, and the shared operations of the statements against the tables of the spec -/

/-- R135's multiplication without tables, on the examples of R138; R243's blocks on the example of R244. -/
theorem test_statement_functions :
    polyMul 0x53#8 0xCA#8 = 0x8F#8 ∧ polyMul 0x02#8 0x80#8 = 0x1D#8 ∧
      crcBitwise [0xFF, 0x12, 0x34, 0x00] = 227#8 ∧
      cobsBlocks 5 [0x11, 0x22, 0x00, 0x33] = [0x03, 0x11, 0x22, 0x02, 0x33] := by decide +kernel

theorem test_step_runs_a_word :
    (match step (base.withFetchWord 32 0x3053CA00) with
      | .next t => t.response
      | _ => none) = some 0x00000099#32 := by decide +kernel
theorem test_step_rejects_a_word :
    (match step (presenting 0x02000000#32) with
      | .next t => (t.response, t.errlog)
      | _ => (none, 0#6)) = (some 0x05000000#32, 0x20#6) := by decide +kernel

/-! ### Witnesses: the hypotheses of each statement, met by a concrete case at the edges of its clauses -/

/-- Registers that a statement's edge needs, on a state. -/
def withCount (s : State) (n : Nat) : State := s.setCg { s.cg with count := BitVec.ofNat 8 n }
def withFrag (s : State) (n : Nat) : State := s.setSess { s.sess with curFrag := BitVec.ofNat 8 n }
def withFoutn (s : State) (n : Nat) : State := s.setFc { s.fc with foutn := BitVec.ofNat 9 n }
def withSrclen (s : State) (l : List Byte) : State := s.setEnc { s.enc with srclen := l }
def withGen (s : State) (n : Nat) : State := s.setEnc { s.enc with gen := BitVec.ofNat 8 n }
def withCurGen (s : State) (n : Nat) : State := s.setSess { s.sess with curGen := BitVec.ofNat 8 n }
def withCfgK (s : State) (n : Nat) : State := s.setCfg { s.cfg with k := BitVec.ofNat 8 n }

theorem witness_EncodeOfDecodeIsTheWord : decode 0x3253CA00#32 = .ok (.gfmul 0x53#8 0xCA#8) := by decide +kernel

theorem witness_StepRunsTheDecodedCommand :
    (presenting 0x3053CA00#32).inbox = .command 0x3053CA00#32 :: [] ∧
      decode 0x3053CA00#32 = .ok (.gfadd 0x53#8 0xCA#8) := by decide +kernel

theorem witness_IllegalWordSetsOnlyErrlogBitFive :
    (presenting 0x02000000#32).inbox = .command 0x02000000#32 :: [] ∧
      (∀ r ∈ opRows, 0x02000000#32 &&& r.format.mask ≠ r.pattern) ∧
      (presenting 0x3053CA01#32).inbox = .command 0x3053CA01#32 :: [] ∧
      ∀ r ∈ opRows, 0x3053CA01#32 &&& r.format.mask ≠ r.pattern := by decide +kernel

theorem witness_IdleAndResetSteps : base.inbox = [] ∧ (base.setInbox [.reset]).inbox = .reset :: [] := by
  decide +kernel

theorem witness_EveryCommandCompletes :
    (presenting 0xFFFFFFFF#32).inbox = .command 0xFFFFFFFF#32 :: [] := by decide +kernel

theorem witness_ResponsesCarryStatusAndErrlogBit :
    exec (.gfadd 1#8 2#8) base = .next (okAfter base 3) ∧ exec (.gfdiv 1#8 0#8) base = .next (errAfter base 3) :=
  ⟨rfl, rfl⟩

theorem witness_FailingCommandsChangeOnlyErrlog :
    (exec (.gfdiv 1#8 0#8) base = .next (errAfter base 3) ∧ responseStatus 0x03000000#32 ≠ 0 ∧
      (errAfter base 3).response = some 0x03000000#32) ∧
    (exec (.cobsdec 0#8) framed = .next (after (.cobsdec 0#8) framed) ∧
      (after (.cobsdec 0#8) framed).response = some 0x04000000#32) ∧
    exec (.rxbyte 0#8) (receiving [0xFF]) = .next (after (.rxbyte 0#8) (receiving [0xFF])) ∧
      (after (.rxbyte 0#8) (receiving [0xFF])).response = some 0x04000000#32 ∧ responseStatus 0x04000000#32 ≠ 0 :=
  ⟨⟨rfl, by decide +kernel, by decide +kernel⟩, ⟨rfl, by decide +kernel⟩, rfl, by decide +kernel, by decide +kernel⟩

theorem witness_ResetMeetsTheInvariants :
    Params.reference.Ok ∧ ({ fMax := 255, mMax := 239, cMax := 255, pMax := 255 } : Params).Ok ∧
      ({ fMax := 1, mMax := 1, cMax := 1, pMax := 1 } : Params).Ok := by decide +kernel

theorem witness_StepKeepsTheInvariants :
    (active.setInbox [.command 0x73000000#32]).Inv ∧
      step (active.setInbox [.command 0x73000000#32]) = .next (after .sfetch active) :=
  ⟨inv_of_check (by decide +kernel), rfl⟩

theorem witness_ReachableStatesMeetTheInvariants : small.Ok ∧ Reachable small base :=
  ⟨by decide +kernel, .reset 0⟩

theorem witness_ResetRegisterValues :
    (0x00#8, 0x11D) ∈ registerMap base ∧ (0x64#8, 0) ∈ registerMap base ∧ 0 < small.fMax ∧ 3 < small.fMax := by
  decide +kernel

theorem witness_NopAndRdregCommands :
    (0x00#8, 0x11D) ∈ registerMap base ∧ (0x64#8, 0) ∈ registerMap base ∧ (∀ v, (0x04#8, v) ∉ registerMap base) ∧
      ∀ v, (0xFF#8, v) ∉ registerMap base := by
  have h4 : 0x04#8 ∉ (registerMap base).map Prod.fst := by decide +kernel
  have hF : 0xFF#8 ∉ (registerMap base).map Prod.fst := by decide +kernel
  exact ⟨by decide +kernel, by decide +kernel, fun v h => h4 (List.mem_map_of_mem h), fun v h => hF (List.mem_map_of_mem h)⟩

theorem witness_CountAndLengthCommands :
    ((6#8).toNat ≤ base.params.pMax ∧ base.params.pMax < (7#8).toNat) ∧
      ((4#8).toNat ≤ base.params.fMax ∧ base.params.fMax < (5#8).toNat) ∧
      ((3#8).toNat < base.params.fMax ∧ (4#8).toNat ≤ base.params.mMax) ∧
      base.params.fMax ≤ (4#8).toNat ∧ base.params.mMax < (5#8).toNat := by decide +kernel

theorem witness_MemoryWritesStoreOneByte :
    ((3#8).toNat < loaded.params.fMax ∧ (3#8).toNat < loaded.params.mMax) ∧
      ((5#8).toNat < loaded.params.pMax ∧ (6#8).toNat < loaded.dec.k.toNat + loaded.dec.m.toNat) ∧
      (254#8).toNat < 255 ∧ loaded.params.fMax ≤ (4#8).toNat ∧ loaded.params.mMax ≤ (4#8).toNat ∧
      loaded.params.pMax ≤ (6#8).toNat ∧ loaded.dec.k.toNat + loaded.dec.m.toNat ≤ (7#8).toNat := by decide +kernel

theorem witness_MemoryReadsAnswerTheByte_in_range :
    ((3#8).toNat < loaded.params.fMax ∧ (3#8).toNat < loaded.params.mMax) ∧
      ((5#8).toNat < loaded.params.pMax ∧ (6#8).toNat < loaded.dec.k.toNat + loaded.dec.m.toNat) ∧
      (254#8).toNat < 255 ∧
      ((1#8).toNat < coded.enc.cpkn.toNat ∧ (6#8).toNat < coded.enc.cpkg.toNat + coded.enc.cpkm.toNat) ∧
      ((3#8).toNat < decoded.dec.resRows.toNat ∧ (6#8).toNat < decoded.dec.k.toNat + decoded.dec.m.toNat) ∧
      (1#8).toNat * 256 + (1#8).toNat < (withFoutn base 258).fc.foutn.toNat ∧
      (0#8).toNat * 256 + (7#8).toNat < framed.fc.foutn.toNat ∧
      (0#8).toNat < (receiving [0xFF]).fc.rxpayn.toNat := by decide +kernel

theorem witness_MemoryReadsAnswerTheByte_out_of_range :
    base.params.fMax ≤ (4#8).toNat ∧ base.params.mMax ≤ (4#8).toNat ∧ loaded.params.pMax ≤ (6#8).toNat ∧
      loaded.dec.k.toNat + loaded.dec.m.toNat ≤ (7#8).toNat ∧ coded.enc.cpkn.toNat ≤ (2#8).toNat ∧
      coded.enc.cpkg.toNat + coded.enc.cpkm.toNat ≤ (7#8).toNat ∧ decoded.dec.resRows.toNat ≤ (4#8).toNat ∧
      decoded.dec.k.toNat + decoded.dec.m.toNat ≤ (7#8).toNat ∧
      framed.fc.foutn.toNat ≤ (0#8).toNat * 256 + (8#8).toNat ∧
      (withFoutn base 258).fc.foutn.toNat ≤ (1#8).toNat * 256 + (2#8).toNat ∧
      (receiving [0xFF]).fc.rxpayn.toNat ≤ (1#8).toNat := by decide +kernel

theorem witness_PacketAndRowReadsAnswerTheRegister :
    (1#8).toNat < coded.enc.cpkn.toNat ∧ coded.enc.cpkn.toNat ≤ (2#8).toNat ∧ 1 < (2#8).toNat ∧
      (3#8).toNat < decoded.dec.resRows.toNat ∧ decoded.dec.resRows.toNat ≤ (4#8).toNat ∧
      (2#8).toNat < decoded.dec.nsel.toNat ∧ decoded.dec.nsel.toNat ≤ (3#8).toNat := by decide +kernel

theorem witness_AccessCommandsTouchOnlyTheirOwn :
    ((Instr.frwr 3#8 3#8 7#8).row.op.toNat < 0x20 ∧ (Instr.frlen 3#8 4#8).row.op.toNat < 0x20 ∧
      (Instr.frcnt 4#8).row.op.toNat < 0x20 ∧ (Instr.dpcnt 6#8).row.op.toNat < 0x20 ∧
      (Instr.rprd 0#8).row.op.toNat < 0x20) ∧
    exec (.frwr 3#8 3#8 7#8) base = .next (after (.frwr 3#8 3#8 7#8) base) ∧
    exec (.frlen 3#8 4#8) base = .next (after (.frlen 3#8 4#8) base) ∧
    exec (.frcnt 4#8) base = .next (after (.frcnt 4#8) base) ∧
    exec (.dpcnt 6#8) base = .next (after (.dpcnt 6#8) base) ∧
    exec (.rprd 0#8) base = .next (errAfter base 1) ∧
    (after (.frlen 3#8 4#8) base).enc.srclen ≠ base.enc.srclen ∧
    (after (.frcnt 4#8) base).enc.nfrag ≠ base.enc.nfrag ∧ (after (.dpcnt 6#8) base).dec.rows ≠ base.dec.rows :=
  ⟨by decide +kernel, rfl, rfl, rfl, rfl, rfl, by decide +kernel, by decide +kernel, by decide +kernel⟩

theorem witness_ReadAfterWriteAnswersTheByte :
    (exec (.frwr 3#8 3#8 7#8) base = .next (after (.frwr 3#8 3#8 7#8) base) ∧
      respOf (.frwr 3#8 3#8 7#8) base = some (okWord 0)) ∧
    (exec (.dpwr 5#8 6#8 7#8) loaded = .next (after (.dpwr 5#8 6#8 7#8) loaded) ∧
      respOf (.dpwr 5#8 6#8 7#8) loaded = some (okWord 0)) ∧
    exec (.fiwr 254#8 7#8) base = .next (after (.fiwr 254#8 7#8) base) ∧
      respOf (.fiwr 254#8 7#8) base = some (okWord 0) :=
  ⟨⟨rfl, by decide +kernel⟩, ⟨rfl, by decide +kernel⟩, rfl, by decide +kernel⟩

theorem witness_FieldLaws : (⟨0x01#8⟩ : GF) ≠ GF.zero := by decide +kernel
theorem witness_AntilogTableIsTheBuildingLoop : 0 < 255 ∧ 254 < 255 := by decide +kernel
theorem witness_GfdivAnswersTheQuotient : 0x01#8 ≠ 0#8 := by decide +kernel
theorem witness_GfpowAnswersThePower : 1#8 ≠ 0#8 ∧ 255#8 ≠ 0#8 := by decide +kernel
theorem witness_LfsrStepShiftsInTheFeedback : 0 < 7 ∧ 6 < 7 := by decide +kernel
theorem witness_LfsrHasPeriod255 : 0x12#8 ≠ 0#8 ∧ 0 < 1 ∧ 0 < 254 ∧ 254 < 255 := by decide +kernel

theorem witness_LfgenDrawsOneCoefficient :
    (withCount staged 254).cg.count.toNat < 255 ∧ (withCount staged 255).cg.count = 255#8 := by decide +kernel

theorem witness_Exactly255DrawsSucceed :
    exec (.lfseed 0x12#8) base = .next (after (.lfseed 0x12#8) base) ∧
      (exec .lfreset staged = .next (after .lfreset staged) ∧ staged.cg.seed = 0x12#8) ∧ 0 < 255 ∧ 256 > 255 :=
  ⟨rfl, ⟨rfl, rfl⟩, by decide +kernel⟩

theorem witness_EncprepCapturesTheStagedList :
    (1 ≤ (1#8).toNat ∧ (16#8).toNat ≤ 16 ∧ EqualLengths staged) ∧ EqualLengths base ∧ (0#8).toNat = 0 ∧
      16 < (17#8).toNat ∧ ¬ EqualLengths (withSrclen staged [4, 4, 3, 0]) := by
  unfold EqualLengths; decide +kernel

theorem witness_EncpreCodesTheGeneration :
    (withCount prepared 237).Inv ∧ (withCount prepared 237).enc.valid = true ∧
      (0#8).toNat < (withCount prepared 237).enc.ngen.toNat ∧
      genSizeOf (withCount prepared 237) 0 + (3#8).toNat = (withCount prepared 237).params.cMax ∧
      (withCount prepared 237).cg.count.toNat +
        (genSizeOf (withCount prepared 237) 0 + (3#8).toNat) * genSizeOf (withCount prepared 237) 0 = 255 :=
  ⟨inv_of_check (by decide +kernel), by decide +kernel, by decide +kernel, by decide +kernel, by decide +kernel⟩

theorem witness_SfetchReturnsOnePacket_refused :
    base.sess.active = false ∧
    min (complete.sess.k.toNat + complete.sess.red.toNat)
      (complete.sess.totalFrags.toNat - complete.sess.curGen.toNat * complete.sess.k.toNat +
        complete.sess.red.toNat) = complete.sess.curFrag.toNat ∧
    (withGen active 1).enc.ngen.toNat = (withGen active 1).enc.gen.toNat ∧
    (withFrag active 255).sess.curFrag = 255#8 ∧
    (active.sess.active = true ∧
      (withFrag active 3).sess.curFrag.toNat <
        min (active.sess.k.toNat + active.sess.red.toNat)
          (active.sess.totalFrags.toNat - active.sess.curGen.toNat * active.sess.k.toNat +
            active.sess.red.toNat) ∧
      active.enc.valid = true ∧ active.enc.gen.toNat < active.enc.ngen.toNat ∧
      (withFrag active 3).sess.curFrag ≠ 255#8 ∧
      255 < (withCount active 253).cg.count.toNat + genSizeOf active active.enc.gen.toNat) := by decide +kernel

theorem witness_EncpreCodesTheGeneration_refused :
    staged.enc.valid = false ∧ prepared.enc.ngen.toNat ≤ (1#8).toNat ∧
    prepared.params.cMax < genSizeOf prepared 0 + (4#8).toNat ∧
    (prepared.enc.valid = true ∧ (0#8).toNat < prepared.enc.ngen.toNat ∧
      genSizeOf prepared 0 + (3#8).toNat ≤ prepared.params.cMax ∧
      255 < (withCount prepared 238).cg.count.toNat +
        (genSizeOf prepared 0 + (3#8).toNat) * genSizeOf prepared 0) := by decide +kernel

/-- Units that differ in their session hold the same source. -/
theorem prepared_same_source : SameSource prepared active := ⟨rfl, ⟨rfl, rfl, rfl, rfl⟩, fun _ _ _ _ => rfl⟩

/-- ENCPRE twice, in two units that differ in their session: from one generator state and count, and after the
generator is restarted from one seed, by LFRESET in one and LFSEED in the other. -/
theorem witness_EncodingIsReproducible :
    prepared.Inv ∧ active.Inv ∧ SameSource prepared active ∧
    (∀ i ∈ [Instr.encpre 0#8 1#8, .encpre 0#8 0#8], IsCoding i) ∧
    (prepared.cg.state = active.cg.state ∧ prepared.cg.count = active.cg.count) ∧
    RestartsFrom 0x12#8 .lfreset prepared ∧ RestartsFrom 0x12#8 (.lfseed 0x12#8) active ∧
    exec .lfreset prepared = .next (after .lfreset prepared) ∧
    exec (.lfseed 0x12#8) active = .next (after (.lfseed 0x12#8) active) ∧
    (afterAll [.encpre 0#8 1#8, .encpre 0#8 0#8] prepared).response = some (okWord 3) ∧
    (afterAll [.encpre 0#8 1#8, .encpre 0#8 0#8] (after .lfreset prepared)).enc.cpkn = 3#8 := by
  refine ⟨prepared_inv, active_inv, prepared_same_source, ?_, ⟨rfl, rfl⟩, .inr ⟨rfl, rfl⟩, .inl rfl, rfl, rfl,
    by decide +kernel, by decide +kernel⟩
  simp [IsCoding]

/-- ENCPRE and then SFETCH, in two units of one session that differ in the frame codec. -/
theorem witness_EncodingIsReproducible_session :
    active.Inv ∧ (withFoutn active 8).Inv ∧ SameSource active (withFoutn active 8) ∧
    (∀ i ∈ [Instr.encpre 0#8 1#8, .sfetch], IsCoding i) ∧
    (active.sess = (withFoutn active 8).sess ∧ active.enc.gen = (withFoutn active 8).enc.gen) ∧
    (active.cg.state = (withFoutn active 8).cg.state ∧ active.cg.count = (withFoutn active 8).cg.count) ∧
    (afterAll [.encpre 0#8 1#8, .sfetch] active).response = some (okWord 1) := by
  refine ⟨active_inv, inv_of_check (by decide +kernel), ⟨rfl, ⟨rfl, rfl, rfl, rfl⟩, fun _ _ _ _ => rfl⟩, ?_,
    ⟨rfl, rfl⟩, ⟨rfl, rfl⟩, by decide +kernel⟩
  simp [IsCoding]

theorem witness_DeccfgSetsTheShape :
    1 ≤ (1#8).toNat ∧ (16#8).toNat ≤ 16 ∧ (4#8).toNat ≤ base.params.mMax ∧ 16 < (17#8).toNat ∧
      base.params.mMax < (5#8).toNat := by decide +kernel

theorem witness_DecrunReducesAndClassifies : loaded.Inv ∧ loaded.dec.k ≠ 0#5 ∧ base.dec.k = 0#5 :=
  ⟨loaded_inv, by decide +kernel, by decide +kernel⟩

theorem witness_DecgenListsTheInnovativeRows : decoded.Inv ∧ decoded.dec.k ≠ 0#5 ∧ base.dec.k = 0#5 :=
  ⟨decoded_inv, by decide +kernel, by decide +kernel⟩

theorem witness_ReductionKeepsTheRowSpace :
    loaded.Inv ∧ loaded.dec.k ≠ 0#5 ∧ exec .decrun loaded = .next (after .decrun loaded) :=
  ⟨loaded_inv, by decide +kernel, rfl⟩

theorem witness_ReductionIsReducedEchelon :
    loaded.Inv ∧ loaded.dec.k ≠ 0#5 ∧ exec .decrun loaded = .next (after .decrun loaded) ∧
      (after .decrun loaded).dec.rank = 3#5 ∧ (after .decrun loaded).dec.resRows = 4#8 :=
  ⟨loaded_inv, by decide +kernel, rfl, by decide +kernel, by decide +kernel⟩

theorem witness_DecodingRecoversTheFragments :
    loaded.Inv ∧ loaded.dec.k ≠ 0#5 ∧
    (∀ r < loaded.dec.rows.toNat, ∀ x < loaded.dec.m.toNat,
      cell loaded .dpkt r (loaded.dec.k.toNat + x) =
        xorSumTo loaded.dec.k.toNat fun p => polyMul (cell loaded .dpkt r p) (cell staged .src p x)) ∧
    exec .decgen loaded = .next (after .decgen loaded) ∧ succAt (after .decgen loaded) 2 = true ∧
    redAt (after .decgen loaded) 3 = true :=
  ⟨loaded_inv, by decide +kernel, by decide +kernel, rfl, by decide +kernel, by decide +kernel⟩

theorem witness_FullRankDecodesEveryFragment :
    loaded.Inv ∧ loaded.dec.k ≠ 0#5 ∧ exec .decrun loaded = .next (after .decrun loaded) ∧
      (after .decrun loaded).dec.rank = (after .decrun loaded).dec.k :=
  ⟨loaded_inv, by decide +kernel, rfl, by decide +kernel⟩

theorem witness_DecodingIsStateless :
    loaded.Inv ∧ decoded.Inv ∧ loaded.params = decoded.params ∧ loaded.dec.k ≠ 0#5 ∧ loaded.dec.k = decoded.dec.k ∧
    loaded.dec.m = decoded.dec.m ∧ loaded.dec.rows = decoded.dec.rows ∧
    (∀ r < loaded.dec.rows.toNat, ∀ j < loaded.dec.k.toNat + loaded.dec.m.toNat,
      cell loaded .dpkt r j = cell decoded .dpkt r j) ∧
    exec .decgen loaded = .next (after .decgen loaded) ∧ exec .decgen decoded = .next (after .decgen decoded) :=
  ⟨loaded_inv, decoded_inv, by decide +kernel, by decide +kernel, by decide +kernel, by decide +kernel,
    by decide +kernel, fun _ _ _ _ => rfl, rfl, rfl⟩

theorem witness_ConfigurationCommands :
    2 < (3#8).toNat ∧ 2 < (255#8).toNat ∧ active.cfg.loaded = true ∧ exec .sstop active = .next (after .sstop active) :=
  ⟨by decide +kernel, by decide +kernel, rfl, rfl⟩

theorem witness_SstartCreatesTheSession :
    (configured.cfg.loaded = true ∧ configured.sess.active = false ∧ 1 ≤ (withCfgK configured 1).cfg.k.toNat ∧
      (withCfgK configured 16).cfg.k.toNat ≤ 16 ∧ EqualLengths configured) ∧
    base.cfg.loaded = false ∧ active.sess.active = true ∧ (withCfgK configured 0).cfg.k = 0#8 ∧
    16 < (withCfgK configured 17).cfg.k.toNat ∧ ¬ EqualLengths (withSrclen configured [4, 3, 4, 0]) := by
  unfold EqualLengths; decide +kernel

theorem witness_SfetchReturnsOnePacket :
    (withCount (withFrag active 3) 252).Inv ∧ active.sess.active = true ∧
    (withFrag active 3).sess.curFrag.toNat <
      min (active.sess.k.toNat + active.sess.red.toNat)
        (active.sess.totalFrags.toNat - active.sess.curGen.toNat * active.sess.k.toNat + active.sess.red.toNat) ∧
    active.enc.gen.toNat < active.enc.ngen.toNat ∧ (withFrag active 3).sess.curFrag ≠ 255#8 ∧
    (withCount active 252).cg.count.toNat + genSizeOf active active.enc.gen.toNat = 255 :=
  ⟨inv_of_check (by decide +kernel), by decide +kernel, by decide +kernel, by decide +kernel, by decide +kernel,
    by decide +kernel⟩

theorem witness_SadvAdvancesTheGeneration :
    (active.sess.active = true ∧ (withCurGen active 254).sess.curGen ≠ 255#8 ∧
      (withGen active 254).enc.gen ≠ 255#8) ∧
    base.sess.active = false ∧ (withCurGen active 255).sess.curGen = 255#8 ∧ (withGen active 255).enc.gen = 255#8 := by
  decide +kernel

theorem witness_SstopClearsTheSession : exec .sstop active = .next (after .sstop active) := rfl

theorem witness_SessionPredicateCommands :
    (true = true ↔
      min (complete.sess.k.toNat + complete.sess.red.toNat)
        (complete.sess.totalFrags.toNat - complete.sess.curGen.toNat * complete.sess.k.toNat +
          complete.sess.red.toNat) ≤ complete.sess.curFrag.toNat) ∧
    (false = true ↔
      min (active.sess.k.toNat + active.sess.red.toNat)
        (active.sess.totalFrags.toNat - active.sess.curGen.toNat * active.sess.k.toNat + active.sess.red.toNat) ≤
        (withFrag active 3).sess.curFrag.toNat) ∧
    (true = true ↔ complete.sess.genCount.toNat ≤ complete.sess.curGen.toNat + 1) ∧
    complete.sess.active = true ∧ base.sess.active = false := by decide +kernel

theorem witness_CobsRoundTrip : (List.replicate 254 0x01#8).length ≤ 254 ∧ ([] : List Byte).length ≤ 254 := by
  decide +kernel

/-- A sequence that reads as runs, and two that do not: a code of zero, a run past the end. -/
theorem witness_CobsDecodeReadsRuns :
    CobsRuns [0x02, 0x41, 0x01] [0x41, 0x00] ∧ (∀ out, ¬ CobsRuns [0x00] out) ∧ ∀ out, ¬ CobsRuns [0x03, 0x01] out := by
  refine ⟨.more 0x02 [0x41] [0x01] [] rfl (by simp) (.last 0x01 [] rfl), fun out h => ?_, fun out h => ?_⟩
  · generalize he : [0x00#8] = e at h
    cases h with
    | none => cases he
    | last d run hd => cases he; cases hd
    | more d run rest out hd => injection he with h1; subst h1; cases hd
  · generalize he : [0x03#8, 0x01#8] = e at h
    cases h with
    | none => cases he
    | last d run hd => cases he; cases hd
    | more d run rest out hd hr =>
      injection he with h1 h2
      subst h1
      have h3 := congrArg List.length h2
      have h4 : 0 < rest.length := List.length_pos_iff.2 hr
      have h5 : run.length + 1 = 3 := hd
      simp at h3
      omega

theorem witness_CobsencFillsTheOutputBuffer : (254#8).toNat ≤ 254 ∧ (0#8).toNat ≤ 254 := by decide +kernel

theorem witness_CobsdecFillsTheOutputBuffer :
    cobsDecode (bytesOf (withFin [0x02, 0x41]) .fin (2#8).toNat) ≠ [] ∧
      cobsDecode (bytesOf (withFin [0x01]) .fin (1#8).toNat) = [] ∧
      cobsDecode (bytesOf base .fin (0#8).toNat) = [] := by decide +kernel

theorem witness_FrbuildBuildsTheWireFrame : (0#8).toNat ≤ 252 ∧ (252#8).toNat ≤ 252 ∧ 252 < (253#8).toNat := by
  decide +kernel

theorem witness_RxbyteReassemblesFrames_collecting :
    (base.fc.rxsync = false ∧ 0x55#8 ≠ 0xFF#8) ∧
    ((receiving (0xFF#8 :: List.replicate 256 0x01#8)).fc.rxsync = true ∧
      (receiving (0xFF#8 :: List.replicate 256 0x01#8)).fc.rxn.toNat = 257 ∧ 0xFF#8 ≠ 0x00#8) ∧
    fullBuffer.fc.rxsync = true ∧ fullBuffer.fc.rxn.toNat = 258 := by decide +kernel

/-- One buffer for each cause of R252, and two that are delivered, the shortest and one with the declared length too
large (V47); the hypotheses of the statement hold of each. -/
theorem witness_RxbyteReassemblesFrames_checking :
    ∀ buf ∈
      [ [0xFF], [0xFF, 0x01, 0x02, 0x03, 0x04], [0xFF, 0x05], [0xFF, 0x05, 0x09, 0x01], [0xFF, 0x05, 0x02, 0x07],
        [0xFF, 0x05, 0x05, 0xD6, 0x03, 0x12, 0x34], [0xFF, 0x05, 0x05, 0xD7, 0x02, 0x12, 0x34],
        [0xFF, 0x03, 0x02, 0xFF, 0x01], [0xFF, 0x09, 0x05, 0xD6, 0x02, 0x12, 0x34],
        0xFF :: List.replicate 256 0x01 ],
      (receiving buf).Inv ∧ (receiving buf).fc.rxsync = true ∧ (receiving buf).fc.rxn.toNat < 258 := by
  have h : ∀ buf ∈
      [ [0xFF], [0xFF, 0x01, 0x02, 0x03, 0x04], [0xFF, 0x05], [0xFF, 0x05, 0x09, 0x01], [0xFF, 0x05, 0x02, 0x07],
        [0xFF, 0x05, 0x05, 0xD6, 0x03, 0x12, 0x34], [0xFF, 0x05, 0x05, 0xD7, 0x02, 0x12, 0x34],
        [0xFF, 0x03, 0x02, 0xFF, 0x01], [0xFF, 0x09, 0x05, 0xD6, 0x02, 0x12, 0x34],
        0xFF :: List.replicate 256 0x01 ],
      checkInv (receiving buf) = true ∧ (receiving buf).fc.rxsync = true ∧ (receiving buf).fc.rxn.toNat < 258 := by
    decide +kernel
  exact fun buf hb => ⟨inv_of_check (h buf hb).1, (h buf hb).2⟩

theorem witness_FrameRoundTrip :
    (252#8).toNat ≤ 252 ∧ exec (.frbuild 252#8) base = .next (after (.frbuild 252#8) base) ∧
      base.fc.rxsync = false := ⟨by decide +kernel, rfl, rfl⟩

theorem witness_OnlyTheNamedCommandsWrite :
    exec .sfetch active = .next (after .sfetch active) ∧ exec .sadv active = .next (after .sadv active) ∧
    exec (.gfdiv 1#8 0#8) base = .next (errAfter base 3) ∧
    (after .sfetch active).cg.count ≠ active.cg.count ∧ (after .sfetch active).enc.cpkpost ≠ active.enc.cpkpost ∧
    (after .sfetch active).mem.cpk ≠ active.mem.cpk ∧ (after .sadv active).enc.gen ≠ active.enc.gen ∧
    (errAfter base 3).errlog ≠ base.errlog :=
  ⟨rfl, rfl, rfl, by decide +kernel, by decide +kernel, by decide +kernel, by decide +kernel, by decide +kernel⟩

theorem witness_SessionUnitIsSeparable :
    isSessionCommand (.encpre 0#8 1#8) = false ∧ (∀ a, Instr.encpre 0#8 1#8 ≠ .rdreg a) ∧
      exec (.encpre 0#8 1#8) active = .next (after (.encpre 0#8 1#8) active) :=
  ⟨by decide +kernel, fun _ h => Instr.noConfusion h, rfl⟩

end Sys2Proof.Tests
end

section
/-! PROOFS. What every command and every step has in common (00_scope.md R8, R10, R21, 30_encoding.md R80): a step
runs the decoded word, and a command completes with one reply and leaves the host's side alone. -/

open Sys2Proof Sys2Proof.Certificates

namespace Sys2Proof.Machine

/-! ### The step and a presented word -/

theorem execWord_of_ok {cw : CommandWord} {i : Instr} (h : decode cw = .ok i) (s : State) :
    execWord cw s = exec i s := by
  simp only [execWord, h]

theorem execWord_of_error {cw : CommandWord} {e : DecodeError} (h : decode cw = .error e) (s : State) :
    execWord cw s = .next s.rejectWord := by
  simp only [execWord, h]

theorem step_of_idle {s : State} (h : s.inbox = []) : step s = .next s := by
  simp only [step, h]

theorem step_of_reset {s : State} {rest : List HostEvent} (h : s.inbox = .reset :: rest) :
    step s = .next (s.setInbox rest).applyReset := by
  simp only [step, h]

theorem step_of_command {s : State} {cw : CommandWord} {rest : List HostEvent} (h : s.inbox = .command cw :: rest) :
    step s = execWord cw (s.setInbox rest) := by
  simp only [step, h]

/-- Settles O5: the step takes the word off the inbox and runs it, and the word is a command. -/
theorem stepRunsTheDecodedCommand : Obligations.StepRunsTheDecodedCommand := by
  intro s cw rest i hin hcw
  calc step s = execWord cw (s.setInbox rest) := step_of_command hin
    _ = exec i (s.setInbox rest) := execWord_of_ok hcw _

/-! ### What no command changes -/

/-- The capacities, the reset counter and the host's pending events, which no command changes (R7, R9, R11). -/
def State.host (s : State) : Params × Nat × List HostEvent := (s.params, s.epoch, s.inbox)

/-- The state on which a command's pseudocode ends, before the response and ERRLOG are set (R13). -/
def Reply.state : Reply → State
  | .value s _ => s
  | .raise s _ => s

section Host

variable (s : State)

@[simp] theorem State.host_setCg (x : CgRegs) : (s.setCg x).host = s.host := rfl
@[simp] theorem State.host_setEnc (x : EncRegs) : (s.setEnc x).host = s.host := rfl
@[simp] theorem State.host_setDec (x : DecRegs) : (s.setDec x).host = s.host := rfl
@[simp] theorem State.host_setCfg (x : CfgRegs) : (s.setCfg x).host = s.host := rfl
@[simp] theorem State.host_setSess (x : SessRegs) : (s.setSess x).host = s.host := rfl
@[simp] theorem State.host_setFc (x : FcRegs) : (s.setFc x).host = s.host := rfl
@[simp] theorem State.host_writeByte (sp : Space) (k : Nat) (v : Byte) : (s.writeByte sp k v).host = s.host := rfl
@[simp] theorem State.host_writeRun (sp : Space) (k : Nat) (bs : List Byte) : (s.writeRun sp k bs).host = s.host := rfl

@[simp] theorem State.host_putFout (bs : List Byte) : (s.putFout bs).host = s.host := by
  rw [State.putFout_eq, State.host_setFc, State.host_writeRun]

@[simp] theorem State.host_encodeOne (gi j : Nat) : (s.encodeOne gi j).host = s.host := by
  simp [State.host]

@[simp] theorem State.host_encodeMany (gi j n : Nat) : (s.encodeMany gi j n).host = s.host := by
  obtain ⟨hparams, hepoch, hinbox, -⟩ := s.encodeMany_frame gi j n
  simp [State.host, hparams, hepoch, hinbox]

@[simp] theorem State.host_reduceAndClassify : s.reduceAndClassify.host = s.host := by
  obtain ⟨hparams, hepoch, hinbox, -⟩ := s.writeRows_frame 0 (reduce s.dec.k.toNat s.accumulated).1
  simp [State.host, State.reduceAndClassify, hparams, hepoch, hinbox]

@[simp] theorem Reply.state_value (v : Nat) : (Reply.value s v).state = s := rfl
@[simp] theorem Reply.state_raise (e : ErrorKind) : (Reply.raise s e).state = s := rfl

@[simp] theorem State.host_askSession (p : SessRegs → Bool) : (s.askSession p).state.host = s.host := by
  unfold State.askSession
  split <;> rfl

@[simp] theorem State.host_dropFrame (cause : Nat) : (s.dropFrame cause).state.host = s.host := rfl

@[simp] theorem State.host_deliver (payload : List Byte) : (s.deliver payload).state.host = s.host := by
  simp [State.deliver]

@[simp] theorem State.host_collect (a : Byte) : (s.collect a).state.host = s.host := by
  unfold State.collect
  dsimp only
  split
  · simp
  · split <;> simp

end Host

/-- Ending a command sets the response and ERRLOG, and nothing of the host's side. -/
theorem Reply.settle_host (r : Reply) : r.settle.host = r.state.host := by cases r <;> rfl

/-- Ending a command gives a response word (R80). -/
theorem Reply.settle_response (r : Reply) : ∃ rw, r.settle.response = some rw := by
  cases r with
  | value s v => exact ⟨_, s.answer_response v⟩
  | raise s e => exact ⟨_, s.takeError_response e⟩

/-- Every command completes with a reply, on a state with the host's side of the old one (R10, R80). -/
theorem exec_completes (i : Instr) (s : State) :
    ∃ r : Reply, exec i s = r.complete ∧ r.state.host = s.host := by
  cases i
  -- no test
  case nop | gfadd | gfsub | gfmul | gfpow | lfseed | lfreset | cfgload | sstop | crc8 => exact ⟨_, rfl, rfl⟩
  -- one test, or one partial function
  case frcnt | frlen | frwr | frrd | cprd | dpcnt | dpwr | dprd | drrd | drfl | dsrd | fiwr | fird | ford | rprd |
      deccfg | decrun | decgen | sadv | cobsenc | frbuild | rdreg | gfdiv | lfgen | encprep | cfgset | cobsdec =>
    refine ⟨_, rfl, ?_⟩
    split <;> simp
  -- the session's predicates
  case sgenc | slast | sdone => exact ⟨_, rfl, State.host_askSession ..⟩
  -- two tests in a row
  case cpmd | encpre | sstart | sfetch =>
    refine ⟨_, rfl, ?_⟩
    split
    · simp
    · split <;> simp
  case rxbyte =>
    refine ⟨_, rfl, ?_⟩
    split
    · split <;> simp
    · split <;> simp

/-- A presented word completes like a command: it is one, or it raises IllegalCommand (R85). -/
theorem execWord_completes (cw : CommandWord) (s : State) :
    ∃ r : Reply, execWord cw s = r.complete ∧ r.state.host = s.host := by
  cases h : decode cw with
  | ok i => rw [execWord_of_ok h]; exact exec_completes i s
  | error e => exact ⟨.raise s .illegalCommand, execWord_of_error h s, rfl⟩

/-- Settles O8: a command, and so a presented word, ends with a reply, whose settling sets the response. -/
theorem everyCommandCompletes : Obligations.EveryCommandCompletes := by
  refine ⟨fun i s => ?_, fun s cw rest hin => ?_, fun s => ?_⟩
  · obtain ⟨r, hr, -⟩ := exec_completes i s
    obtain ⟨rw, hrw⟩ := r.settle_response
    exact ⟨r.settle, rw, hr, hrw⟩
  · obtain ⟨r, hr, hhost⟩ := execWord_completes cw (s.setInbox rest)
    obtain ⟨rw, hrw⟩ := r.settle_response
    have hinbox : r.settle.inbox = rest := congrArg (·.2.2) (r.settle_host.trans hhost)
    exact ⟨r.settle, rw, (step_of_command hin).trans hr, hrw, hinbox⟩
  · match hin : s.inbox with
    | [] => exact ⟨_, step_of_idle hin⟩
    | .reset :: rest => exact ⟨_, step_of_reset hin⟩
    | .command cw :: rest =>
      obtain ⟨r, hr, -⟩ := execWord_completes cw (s.setInbox rest)
      exact ⟨r.settle, (step_of_command hin).trans hr⟩

end Sys2Proof.Machine
end

section
/-! PROOFS. A command outside the session unit, RDREG aside, reads and writes neither the session nor its configuration
(00_scope.md R3, 45_session.md R210): replacing them before or after such a command is the same. -/

open Sys2Proof Sys2Proof.Certificates

namespace Sys2Proof.Machine

/-- The unit with other session and configuration registers. -/
def State.withSession (s : State) (x : SessRegs) (c : CfgRegs) : State := (s.setSess x).setCfg c

/-- A reply on the state with other session and configuration registers. -/
def Reply.withSession (r : Reply) (x : SessRegs) (c : CfgRegs) : Reply :=
  match r with
  | .value s v => .value (s.withSession x c) v
  | .raise s e => .raise (s.withSession x c) e

section Session

variable (s : State) (x : SessRegs) (c : CfgRegs)

@[simp] theorem State.withSession_params : (s.withSession x c).params = s.params := rfl
@[simp] theorem State.withSession_cg : (s.withSession x c).cg = s.cg := rfl
@[simp] theorem State.withSession_enc : (s.withSession x c).enc = s.enc := rfl
@[simp] theorem State.withSession_dec : (s.withSession x c).dec = s.dec := rfl
@[simp] theorem State.withSession_fc : (s.withSession x c).fc = s.fc := rfl

@[simp] theorem State.withSession_readRun (sp : Space) (k n : Nat) :
    (s.withSession x c).readRun sp k n = s.readRun sp k n := rfl

@[simp] theorem State.withSession_setCg (y : CgRegs) :
    (s.withSession x c).setCg y = (s.setCg y).withSession x c := rfl
@[simp] theorem State.withSession_setEnc (y : EncRegs) :
    (s.withSession x c).setEnc y = (s.setEnc y).withSession x c := rfl
@[simp] theorem State.withSession_setDec (y : DecRegs) :
    (s.withSession x c).setDec y = (s.setDec y).withSession x c := rfl
@[simp] theorem State.withSession_setFc (y : FcRegs) :
    (s.withSession x c).setFc y = (s.setFc y).withSession x c := rfl
@[simp] theorem State.withSession_writeByte (sp : Space) (k : Nat) (v : Byte) :
    (s.withSession x c).writeByte sp k v = (s.writeByte sp k v).withSession x c := rfl
@[simp] theorem State.withSession_writeRun (sp : Space) (k : Nat) (bs : List Byte) :
    (s.withSession x c).writeRun sp k bs = (s.writeRun sp k bs).withSession x c := rfl

@[simp] theorem State.withSession_finBytes (n : Nat) : (s.withSession x c).finBytes n = s.finBytes n := rfl

@[simp] theorem State.withSession_putFout (bs : List Byte) :
    (s.withSession x c).putFout bs = (s.putFout bs).withSession x c := by
  simp only [State.putFout_eq, withSession_writeRun, withSession_fc, withSession_setFc]

@[simp] theorem State.withSession_payload (gi : Nat) (vec : List Byte) :
    (s.withSession x c).payload gi vec = s.payload gi vec := rfl

@[simp] theorem State.withSession_encodeOne (gi j : Nat) :
    (s.withSession x c).encodeOne gi j = (s.encodeOne gi j).withSession x c := by
  simp [State.encodeOne]

@[simp] theorem State.withSession_encodeMany (gi j n : Nat) :
    (s.withSession x c).encodeMany gi j n = (s.encodeMany gi j n).withSession x c := by
  induction n generalizing s j with
  | zero => rfl
  | succ n ih => simp only [State.encodeMany, withSession_encodeOne, ih]

@[simp] theorem State.withSession_accumulated : (s.withSession x c).accumulated = s.accumulated := rfl

@[simp] theorem State.withSession_classes : (s.withSession x c).classes = s.classes := rfl

@[simp] theorem State.withSession_writeRows (r : Nat) (m : Matrix) :
    (s.withSession x c).writeRows r m = (s.writeRows r m).withSession x c := by
  induction m generalizing s r with
  | nil => rfl
  | cons row m ih => simp only [State.writeRows, withSession_writeRun, ih]

@[simp] theorem State.withSession_reduceAndClassify :
    (s.withSession x c).reduceAndClassify = s.reduceAndClassify.withSession x c := by
  simp [State.reduceAndClassify]

@[simp] theorem Reply.withSession_value (v : Nat) :
    (Reply.value s v).withSession x c = .value (s.withSession x c) v := rfl
@[simp] theorem Reply.withSession_raise (e : ErrorKind) :
    (Reply.raise s e).withSession x c = .raise (s.withSession x c) e := rfl

@[simp] theorem Reply.withSession_ite (p : Prop) [Decidable p] (r r' : Reply) :
    (if p then r else r').withSession x c = if p then r.withSession x c else r'.withSession x c :=
  apply_ite (·.withSession x c) p r r'

/-- Setting the response and ERRLOG does not read the session. -/
@[simp] theorem Reply.settle_withSession (r : Reply) :
    (r.withSession x c).settle = r.settle.withSession x c := by
  cases r <;> rfl

@[simp] theorem State.withSession_dropFrame (cause : Nat) :
    (s.withSession x c).dropFrame cause = (s.dropFrame cause).withSession x c := rfl

@[simp] theorem State.withSession_deliver (payload : List Byte) :
    (s.withSession x c).deliver payload = (s.deliver payload).withSession x c := by
  simp [State.deliver]

@[simp] theorem State.withSession_collect (a : Byte) :
    (s.withSession x c).collect a = (s.collect a).withSession x c := by
  simp only [State.collect, withSession_fc, withSession_writeByte, withSession_setFc, withSession_readRun]
  split
  · rfl
  · split
    · exact State.withSession_dropFrame ..
    · exact State.withSession_deliver ..

end Session

/-- A command outside the session unit, RDREG aside, ends with the same reply whatever the session and configuration
registers hold, and keeps them (R3, R210). -/
theorem exec_withSession (i : Instr) (s : State) (x : SessRegs) (c : CfgRegs)
    (hi : isSessionCommand i = false) (hr : ∀ a, i ≠ .rdreg a) :
    ∃ r : Reply, exec i s = r.complete ∧ exec i (s.withSession x c) = (r.withSession x c).complete := by
  cases i
  case rdreg a => exact absurd rfl (hr a)
  case cfgset | cfgload | sstart | sfetch | sadv | sstop | sgenc | slast | sdone =>
    simp [isSessionCommand, Instr.row] at hi
  -- no test
  case nop | gfadd | gfsub | gfmul | gfpow | lfseed | lfreset | crc8 => exact ⟨_, rfl, rfl⟩
  -- the common shape of R100
  case frcnt | frlen | frwr | frrd | cprd | dpcnt | dpwr | dprd | drrd | drfl | dsrd | fiwr | fird | ford | rprd =>
    refine ⟨_, rfl, ?_⟩
    rw [Reply.withSession_ite]
    rfl
  -- tests in a row
  case deccfg | cobsenc | frbuild | decrun | decgen | encpre =>
    refine ⟨_, rfl, ?_⟩
    simp [exec, execDeccfg, execCobsenc, execFrbuild, execDecrun, execDecgen, execEncpre]
  -- one partial function
  case gfdiv | lfgen | encprep | cobsdec =>
    refine ⟨_, rfl, ?_⟩
    simp only [exec, execGfdiv, execLfgen, execEncprep, execCobsdec, State.withSession_cg, State.withSession_enc,
      State.withSession_finBytes]
    split <;> simp
  case cpmd a b =>
    refine ⟨_, rfl, ?_⟩
    simp only [exec, execCpmd, State.withSession_enc]
    split
    · rfl
    · rw [Reply.withSession_ite]; rfl
  case rxbyte =>
    refine ⟨_, rfl, ?_⟩
    simp [exec, execRxbyte]

/-- Settles O58: a reply with the session replaced settles to the settled state with the session replaced. -/
theorem sessionUnitIsSeparable : Obligations.SessionUnitIsSeparable := by
  intro i s t x c hi hr ht
  obtain ⟨r, hexec, hexec'⟩ := exec_withSession i s x c hi hr
  have hsettle : r.settle = t := Host.Outcome.next.inj (hexec.symm.trans ht)
  calc exec i (s.withSession x c) = (r.withSession x c).complete := hexec'
    _ = .next (r.settle.withSession x c) := by rw [Reply.complete_eq, Reply.settle_withSession]
    _ = .next (t.withSession x c) := by rw [hsettle]

end Sys2Proof.Machine
end

section
/-! PROOFS. What each command can do to the state, command by command, with the tests that it has passed (R100, R272):
one inversion of the dispatch, from which the invariants and the frame of every command follow. -/

open Sys2Proof Sys2Proof.Certificates

namespace Sys2Proof.Machine

/-- RXBUF and RXN once a byte has joined the frame being collected (R250). -/
def State.collected (s : State) (a : Byte) : State :=
  (s.writeByte .rxbuf s.fc.rxn.toNat a).setFc { s.fc with rxn := s.fc.rxn + 1#9 }

/-- `CheckFrame()` on the bytes collected (R250, R251). -/
def State.verdict (s : State) : FrameVerdict := checkFrame (s.readRun .rxbuf 0 s.fc.rxn.toNat)

theorem State.collect_eq (s : State) (a : Byte) :
    s.collect a =
      if a ≠ 0x00#8 then .value (s.collected a) 0
      else match (s.collected a).verdict with
        | .drop cause => (s.collected a).dropFrame cause
        | .deliver payload => (s.collected a).deliver payload := by
  unfold State.collect State.verdict
  rfl

/-- `Effect s i u`: the command `i` in the state `s` can end on the state `u`, before the response and ERRLOG are set. A
command that fails, and one that only answers, ends on `s`; each other constructor names the one write of its rule
and the tests that it stands behind. -/
inductive Effect (s : State) : Instr → State → Prop where
  | nothing (i : Instr) : Effect s i s
  | frcnt (a : Byte) : a.toNat ≤ s.params.fMax → Effect s (.frcnt a) (s.setEnc { s.enc with nfrag := a })
  | frlen (a b : Byte) : b.toNat ≤ s.params.mMax →
      Effect s (.frlen a b) (s.setEnc { s.enc with srclen := s.enc.srclen.set a.toNat b })
  | frwr (a b c : Byte) : a.toNat < s.params.fMax → b.toNat < s.params.mMax →
      Effect s (.frwr a b c) (s.writeByte .src (cellKey a.toNat b.toNat) c)
  | dpcnt (a : Byte) : a.toNat ≤ s.params.pMax → Effect s (.dpcnt a) (s.setDec { s.dec with rows := a })
  | dpwr (a b c : Byte) : a.toNat < s.params.pMax → b.toNat < s.dec.width →
      Effect s (.dpwr a b c) (s.writeByte .dpkt (cellKey a.toNat b.toNat) c)
  | fiwr (a b : Byte) : a.toNat < 255 → Effect s (.fiwr a b) (s.writeByte .fin a.toNat b)
  | lfseed (a : Byte) : Effect s (.lfseed a) (s.setCg (CgRegs.rewind { s.cg with seed := a }))
  | lfreset : Effect s .lfreset (s.setCg s.cg.rewind)
  | lfgen (x : CgRegs) : s.cg.generate = some x → Effect s .lfgen (s.setCg x)
  | encprep (a : Byte) (x : EncRegs) : s.enc.preprocess a.toNat = some x → Effect s (.encprep a) (s.setEnc x)
  | encpre (a b : Byte) (count : Nat) : count ≤ s.params.cMax →
      Effect s (.encpre a b)
        ((s.encodeMany a.toNat 0 count).setEnc
          ((s.encodeMany a.toNat 0 count).enc.describe count (s.enc.genSize a.toNat) a.toNat))
  | deccfg (a b : Byte) : a.toNat ≤ 16 → b.toNat ≤ s.params.mMax →
      Effect s (.deccfg a b)
        (s.setDec
          { s.dec with
            k := BitVec.ofNat 5 a.toNat, m := b, rows := 0#8, resRows := 0#8, rank := 0#5, nsucc := 0#8, nred := 0#8,
            nsel := 0#8 })
  | decrun : Effect s .decrun (s.reduceAndClassify.setDec (s.reduceAndClassify.dec.withSelection []))
  | decgen : Effect s .decgen
      (s.reduceAndClassify.setDec (s.reduceAndClassify.dec.withSelection (innovative s.classes)))
  | cfgset (a b : Byte) (x : CfgRegs) : s.cfg.setField a b = some x → Effect s (.cfgset a b) (s.setCfg x)
  | cfgload : Effect s .cfgload (s.setCfg { s.cfg with loaded := true })
  | sstart (x : EncRegs) : s.sess.active = false → s.enc.preprocess s.cfg.k.toNat = some x →
      Effect s .sstart
        (((s.setEnc x).setCg (CgRegs.rewind { s.cg with seed := s.cfg.seed })).setSess (SessRegs.create s.cfg x))
  | sfetch (pre post : Byte) : s.sess.active = true →
      Effect s .sfetch
        (((s.encodeOne s.enc.gen.toNat 0).setEnc
          ((s.encodeOne s.enc.gen.toNat 0).enc.describe 1 (s.enc.genSize s.enc.gen.toNat) s.enc.gen.toNat)).setSess
          (s.sess.afterFetch pre post))
  | sadv : s.sess.active = true →
      Effect s .sadv
        ((s.setSess { s.sess with curGen := s.sess.curGen + 1#8, curFrag := 0#8 }).setEnc s.enc.advancePointer)
  | sstop : Effect s .sstop
      (((s.setSess SessRegs.absent).setEnc { s.enc with nfrag := 0#8, valid := false }).setCg s.cg.rewind)
  | cobsenc (a : Byte) : a.toNat ≤ 254 →
      Effect s (.cobsenc a) (s.putFout (cobsEncode (s.finBytes a.toNat)))
  | cobsdec (a : Byte) : Effect s (.cobsdec a) (s.putFout (cobsDecode (s.finBytes a.toNat)))
  | cobsdecFails (a : Byte) : Effect s (.cobsdec a) (s.setFc { s.fc with foutn := 0#9 })
  | frbuild (a : Byte) : a.toNat ≤ 252 →
      Effect s (.frbuild a) (s.putFout (wireFrame (s.finBytes a.toNat)))
  | rxStart : s.fc.rxsync = false →
      Effect s (.rxbyte 0xFF#8) ((s.writeByte .rxbuf 0 0xFF#8).setFc { s.fc with rxn := 1#9, rxsync := true })
  | rxOverflow (a : Byte) (cause : Nat) : Effect s (.rxbyte a) (s.dropFrame cause).state
  | rxCollect (a : Byte) : s.fc.rxsync = true → s.fc.rxn ≠ 258#9 → Effect s (.rxbyte a) (s.collected a)
  | rxDrop (a : Byte) (cause : Nat) : s.fc.rxsync = true → s.fc.rxn ≠ 258#9 →
      Effect s (.rxbyte a) ((s.collected a).dropFrame cause).state
  | rxDeliver (a : Byte) (payload : List Byte) : s.fc.rxsync = true → s.fc.rxn ≠ 258#9 →
      (s.collected a).verdict = .deliver payload → Effect s (.rxbyte a) ((s.collected a).deliver payload).state

/-- One test: the effect of either branch is an effect of the command. -/
theorem Effect.ite {s : State} {i : Instr} {p : Prop} [Decidable p] {r r' : Reply}
    (h : p → Effect s i r.state) (h' : ¬ p → Effect s i r'.state) : Effect s i (if p then r else r').state := by
  split
  · exact h ‹_›
  · exact h' ‹_›

/-- The common shape of R100: an access whose effect is one of the command's when the operands are in range. -/
theorem Effect.guarded {s : State} {i : Instr} {inRange : Bool} {access : Reply}
    (h : inRange = true → Effect s i access.state) :
    ∃ r : Reply, s.guarded inRange access = r.complete ∧ Effect s i r.state :=
  ⟨_, rfl, .ite h fun _ => .nothing i⟩

theorem execSfetch_effect (s : State) : ∃ r : Reply, execSfetch s = r.complete ∧ Effect s .sfetch r.state := by
  refine ⟨_, rfl, .ite (fun _ => .nothing _) fun hvalid => .ite (fun _ => .nothing _) fun _ => ?_⟩
  push Not at hvalid
  exact .sfetch _ _ (by simpa using hvalid.1)

theorem execRxbyte_effect (a : Byte) (s : State) :
    ∃ r : Reply, execRxbyte a s = r.complete ∧ Effect s (.rxbyte a) r.state := by
  refine ⟨_, rfl, .ite (fun hsync => .ite (fun ha => ?_) fun _ => .nothing _) fun hsync =>
    .ite (fun _ => .rxOverflow a 7) fun hroom => ?_⟩
  · subst ha; exact .rxStart hsync
  · have hsync : s.fc.rxsync = true := by simpa using hsync
    rw [State.collect_eq]
    refine .ite (fun _ => .rxCollect a hsync hroom) fun _ => ?_
    split
    · exact .rxDrop a _ hsync hroom
    · exact .rxDeliver a _ hsync hroom ‹_›

/-- Every command completes, with one of its effects (R10, R80). -/
theorem exec_effect (i : Instr) (s : State) : ∃ r : Reply, exec i s = r.complete ∧ Effect s i r.state := by
  cases i
  -- answers only
  case nop | gfadd | gfsub | gfmul | gfpow | crc8 => exact ⟨_, rfl, .nothing _⟩
  case frrd | cprd | dprd | drrd | drfl | dsrd | fird | ford | rprd => exact Effect.guarded fun _ => .nothing _
  case rdreg | gfdiv => refine ⟨_, rfl, ?_⟩; split <;> exact .nothing _
  case cpmd =>
    refine ⟨_, rfl, ?_⟩
    split
    · exact .nothing _
    · exact .ite (fun _ => .nothing _) fun _ => .nothing _
  case sgenc | slast | sdone => exact ⟨_, rfl, .ite (fun _ => .nothing _) fun _ => .nothing _⟩
  -- one write of the access commands
  case frcnt a => exact Effect.guarded fun h => .frcnt a (by simpa using h)
  case frlen a b =>
    refine Effect.guarded fun h => .frlen a b ?_
    simp only [Bool.and_eq_true, decide_eq_true_eq] at h
    exact h.2
  case frwr a b c =>
    refine Effect.guarded fun h => ?_
    simp only [Bool.and_eq_true, decide_eq_true_eq] at h
    exact .frwr a b c h.1 h.2
  case dpcnt a => exact Effect.guarded fun h => .dpcnt a (by simpa using h)
  case dpwr a b c =>
    refine Effect.guarded fun h => ?_
    simp only [Bool.and_eq_true, decide_eq_true_eq] at h
    exact .dpwr a b c h.1 h.2
  case fiwr a b => exact Effect.guarded fun h => .fiwr a b (by simpa using h)
  -- the units, untested
  case lfseed a => exact ⟨_, rfl, .lfseed a⟩
  case lfreset => exact ⟨_, rfl, .lfreset⟩
  case cfgload => exact ⟨_, rfl, .cfgload⟩
  case sstop => exact ⟨_, rfl, .sstop⟩
  -- the units, behind tests
  case lfgen =>
    refine ⟨_, rfl, ?_⟩
    split
    · exact .nothing _
    · exact .lfgen _ ‹_›
  case encprep a =>
    refine ⟨_, rfl, ?_⟩
    split
    · exact .nothing _
    · exact .encprep a _ ‹_›
  case encpre a b =>
    refine ⟨_, rfl, .ite (fun _ => .nothing _) fun hvalid => .ite (fun _ => .nothing _) fun _ => ?_⟩
    push Not at hvalid
    exact .encpre a b _ hvalid.2.2
  case deccfg a b =>
    refine ⟨_, rfl, .ite (fun _ => .nothing _) fun hshape => ?_⟩
    push Not at hshape
    exact .deccfg a b hshape.2.1 hshape.2.2
  case decrun => exact ⟨_, rfl, .ite (fun _ => .nothing _) fun _ => .decrun⟩
  case decgen => exact ⟨_, rfl, .ite (fun _ => .nothing _) fun _ => .decgen⟩
  case cfgset a b =>
    refine ⟨_, rfl, ?_⟩
    split
    · exact .nothing _
    · exact .cfgset a b _ ‹_›
  case sstart =>
    refine ⟨_, rfl, .ite (fun _ => .nothing _) fun hfree => ?_⟩
    push Not at hfree
    split
    · exact .nothing _
    · exact .sstart _ (by simpa using hfree.2) ‹_›
  case sfetch => exact execSfetch_effect s
  case sadv =>
    refine ⟨_, rfl, .ite (fun _ => .nothing _) fun hopen => ?_⟩
    push Not at hopen
    exact .sadv (by simpa using hopen.1)
  case cobsenc a => exact ⟨_, rfl, .ite (fun _ => .nothing _) fun h => .cobsenc a (not_lt.1 h)⟩
  case cobsdec a =>
    refine ⟨_, rfl, ?_⟩
    split
    · exact .cobsdecFails a
    · next h => rw [Reply.state_value, ← h]; exact .cobsdec a
  case frbuild a => exact ⟨_, rfl, .ite (fun _ => .nothing _) fun h => .frbuild a (not_lt.1 h)⟩
  case rxbyte a => exact execRxbyte_effect a s

end Sys2Proof.Machine
end

section
/-! PROOFS. The invariants of R41: one rule for each update of the state, what each unit's operations keep, and so every
effect of a command, every step and every run. -/

open Sys2Proof Sys2Proof.Certificates

namespace Sys2Proof.Machine

/-! ### One rule for each update of the state -/

section Congr

variable {s t : State}

theorem State.EncoderOk.congr (h : s.EncoderOk) (hp : t.params = s.params) (he : t.enc = s.enc) : t.EncoderOk := by
  constructor <;> rw [he]
  case k => exact h.k
  case valid => exact h.valid
  case cpkg => exact h.cpkg
  all_goals rw [hp]
  exacts [h.nfrag, h.srclenLength, h.srclen, h.m, h.n, h.ngen, h.cpkn, h.cpkm, h.cpkpreLength, h.cpkpostLength]

theorem State.DecoderOk.congr (h : s.DecoderOk) (hp : t.params = s.params) (hd : t.dec = s.dec) : t.DecoderOk := by
  constructor <;> rw [hd]
  case k => exact h.k
  case rankK => exact h.rankK
  case rankRows => exact h.rankRows
  case classes => exact h.classes
  case nsel => exact h.nsel
  case exclusive => exact h.exclusive
  all_goals rw [hp]
  exacts [h.m, h.rows, h.resRows, h.succLength, h.redLength, h.pivLength, h.selLength]

theorem State.SessionOk.congr (h : s.SessionOk) (hp : t.params = s.params) (hs : t.sess = s.sess)
    (hv : t.sess.active = true → t.enc.valid = true) : t.SessionOk := by
  constructor
  case active => exact fun ha => ⟨hv ha, hs ▸ (h.active (hs ▸ ha)).2⟩
  case absent => exact hs ▸ h.absent
  case k => exact hs ▸ h.k
  all_goals rw [hs, hp]
  exacts [h.genCount, h.totalFrags, h.fsize]

theorem State.CodecOk.congr (h : s.CodecOk) (hf : t.fc = s.fc)
    (hb : s.fc.rxsync = true → t.readByte .rxbuf 0 = s.readByte .rxbuf 0) : t.CodecOk := by
  constructor <;> rw [hf]
  case synced => exact fun hs => ⟨(h.synced hs).1, (hb hs).trans (h.synced hs).2⟩
  exacts [h.foutn, h.rxn, h.rxpayn, h.unsynced]

end Congr

namespace State.Inv

variable {s : State} (h : s.Inv)
include h

/-- A present session needs ENC_VALID (R41). -/
theorem valid_of_active (ha : s.sess.active = true) : s.enc.valid = true := (h.session.active ha).1

theorem setInbox (x : List HostEvent) : (s.setInbox x).Inv :=
  ⟨h.params, h.errlog, h.encoder.congr rfl rfl, h.decoder.congr rfl rfl,
    h.session.congr rfl rfl h.valid_of_active, h.codec.congr rfl fun _ => rfl, h.memories⟩

theorem setResponse (x : Option ResponseWord) : (s.setResponse x).Inv :=
  ⟨h.params, h.errlog, h.encoder.congr rfl rfl, h.decoder.congr rfl rfl,
    h.session.congr rfl rfl h.valid_of_active, h.codec.congr rfl fun _ => rfl, h.memories⟩

theorem setErrlog {x : BitVec 6} (hx : x.getLsbD 0 = false) : (s.setErrlog x).Inv :=
  ⟨h.params, hx, h.encoder.congr rfl rfl, h.decoder.congr rfl rfl,
    h.session.congr rfl rfl h.valid_of_active, h.codec.congr rfl fun _ => rfl, h.memories⟩

theorem setCg (x : CgRegs) : (s.setCg x).Inv :=
  ⟨h.params, h.errlog, h.encoder.congr rfl rfl, h.decoder.congr rfl rfl,
    h.session.congr rfl rfl h.valid_of_active, h.codec.congr rfl fun _ => rfl, h.memories⟩

theorem setCfg (x : CfgRegs) : (s.setCfg x).Inv :=
  ⟨h.params, h.errlog, h.encoder.congr rfl rfl, h.decoder.congr rfl rfl,
    h.session.congr rfl rfl h.valid_of_active, h.codec.congr rfl fun _ => rfl, h.memories⟩

theorem setEnc {x : EncRegs} (hx : (s.setEnc x).EncoderOk) (hv : s.sess.active = true → x.valid = true) :
    (s.setEnc x).Inv :=
  ⟨h.params, h.errlog, hx, h.decoder.congr rfl rfl, h.session.congr rfl rfl hv, h.codec.congr rfl fun _ => rfl,
    h.memories⟩

theorem setDec {x : DecRegs} (hx : (s.setDec x).DecoderOk) : (s.setDec x).Inv :=
  ⟨h.params, h.errlog, h.encoder.congr rfl rfl, hx, h.session.congr rfl rfl h.valid_of_active,
    h.codec.congr rfl fun _ => rfl, h.memories⟩

theorem setSess {x : SessRegs} (hx : (s.setSess x).SessionOk) : (s.setSess x).Inv :=
  ⟨h.params, h.errlog, h.encoder.congr rfl rfl, h.decoder.congr rfl rfl, hx, h.codec.congr rfl fun _ => rfl,
    h.memories⟩

theorem setFc {x : FcRegs} (hx : (s.setFc x).CodecOk) : (s.setFc x).Inv :=
  ⟨h.params, h.errlog, h.encoder.congr rfl rfl, h.decoder.congr rfl rfl,
    h.session.congr rfl rfl h.valid_of_active, hx, h.memories⟩

/-- A run of writes inside the memory's shape; while a frame is collected, its start byte RXBUF[0] is not among them
(R41, R64). -/
theorem writeRun {sp : Space} {k : Nat} {bs : List Byte}
    (hshape : ∀ j < bs.length, Space.inShape s.params sp (k + j) = true)
    (hstart : sp = .rxbuf → s.fc.rxsync = true → 1 ≤ k) : (s.writeRun sp k bs).Inv := by
  refine ⟨h.params, h.errlog, h.encoder.congr rfl rfl, h.decoder.congr rfl rfl,
    h.session.congr rfl rfl h.valid_of_active, h.codec.congr rfl fun hsync => ?_, fun sp' => ?_⟩
  · rw [State.readByte_writeRun, if_neg]
    rintro ⟨hsp, hk, -⟩
    have := hstart hsp.symm hsync
    omega
  · simp only [State.writeRun, State.setMem_mem, State.setMem_params, Memories.get_set]
    split
    · next hsp =>
      subst hsp
      refine ⟨Memory.storeRun_wf bs k (h.memories sp').1, fun cell hcell => ?_⟩
      rcases Memory.mem_storeRun bs hcell with ⟨hlo, hhi⟩ | hold
      · simpa [Nat.add_sub_cancel' hlo] using hshape (cell.1 - k) (by omega)
      · exact (h.memories sp').2 cell hold
    · exact h.memories sp'

theorem writeByte {sp : Space} {k : Nat} {v : Byte} (hshape : Space.inShape s.params sp k = true)
    (hstart : sp = .rxbuf → s.fc.rxsync = true → 1 ≤ k) : (s.writeByte sp k v).Inv :=
  h.writeRun (bs := [v]) (fun j hj => by simpa [Nat.lt_one_iff.1 hj] using hshape) hstart

/-- Completing a command: the response, and never ERRLOG bit 0 (R28, R270). -/
theorem answer (v : Nat) : (s.answer v).Inv := h.setResponse _

theorem takeError (e : ErrorKind) : (s.takeError e).Inv := by
  refine (h.setErrlog (x := s.errlog ||| e.errlogBit) ?_).setResponse _
  rw [BitVec.getLsbD_or, h.errlog, Bool.false_or]
  cases e <;> rfl

end State.Inv

/-- Setting the response and ERRLOG keeps R41. -/
theorem Reply.inv_settle {r : Reply} (h : r.state.Inv) : r.settle.Inv := by
  cases r with
  | value s v => exact State.Inv.answer h v
  | raise s e => exact State.Inv.takeError h e

/-! ### Keys inside the shapes of R39 -/

theorem cellKey_zero_add (i j : Nat) : cellKey i 0 + j = cellKey i j := by
  rw [cellKey, cellKey, Nat.add_zero]

theorem cellKey_div {j : Nat} (i : Nat) (hj : j < 256) : cellKey i j / 256 = i := by unfold cellKey; omega

theorem cellKey_mod {j : Nat} (i : Nat) (hj : j < 256) : cellKey i j % 256 = j := by unfold cellKey; omega

section Shapes

variable {p : Params} (hp : p.Ok) {i j : Nat}
include hp

theorem Params.wMax_lt : p.wMax < 256 := by
  obtain ⟨-, ⟨-, hm⟩, -, -⟩ := hp
  unfold Params.wMax
  omega

theorem inShape_src (hi : i < p.fMax) (hj : j < p.mMax) : Space.inShape p .src (cellKey i j) = true := by
  have hw := Params.wMax_lt hp
  unfold Params.wMax at hw
  have h256 : j < 256 := by omega
  simp [Space.inShape, cellKey_div i h256, cellKey_mod i h256, hi, hj]

theorem inShape_cpk (hi : i < p.cMax) (hj : j < p.wMax) : Space.inShape p .cpk (cellKey i j) = true := by
  have h256 : j < 256 := hj.trans (Params.wMax_lt hp)
  simpa [Space.inShape, cellKey_div i h256, cellKey_mod i h256, hi] using hj

theorem inShape_dpkt (hi : i < p.pMax) (hj : j < p.wMax) : Space.inShape p .dpkt (cellKey i j) = true := by
  have h256 : j < 256 := hj.trans (Params.wMax_lt hp)
  simpa [Space.inShape, cellKey_div i h256, cellKey_mod i h256, hi] using hj

theorem inShape_dres (hi : i < p.pMax) (hj : j < p.wMax) : Space.inShape p .dres (cellKey i j) = true :=
  inShape_dpkt hp hi hj

end Shapes

/-! ### ENC -/

theorem ceilDiv_le_self {n k : Nat} (hk : 1 ≤ k) : ceilDiv n k ≤ n := by
  unfold ceilDiv
  rcases Nat.eq_zero_or_pos n with rfl | hn
  · rw [Nat.div_eq_of_lt (by omega)]
  · refine Nat.div_le_of_le_mul ?_
    obtain ⟨k, rfl⟩ := Nat.exists_eq_add_of_le hk
    obtain ⟨n, rfl⟩ := Nat.exists_eq_add_of_le hn
    simp only [Nat.add_mul, Nat.mul_add]
    omega

theorem EncRegs.genSize_le (x : EncRegs) (gi : Nat) : x.genSize gi ≤ x.k.toNat := Nat.min_le_left ..

namespace State.EncoderOk

variable {s : State} (h : s.EncoderOk)
include h

theorem lenOf_le (f : Nat) : (s.enc.lenOf f).toNat ≤ s.params.mMax := by
  unfold EncRegs.lenOf
  by_cases hf : f < s.enc.srclen.length
  · rw [List.getD_eq_getElem _ _ hf]; exact h.srclen _ (List.getElem_mem hf)
  · rw [List.getD_eq_default _ _ (not_lt.1 hf)]; exact Nat.zero_le _

/-- What `Preprocess` captures is in range, and ENC_NGEN fits its register (R30, R31, R41). -/
theorem preprocess {k : Nat} {x : EncRegs} (hx : s.enc.preprocess k = some x) :
    (s.setEnc x).EncoderOk ∧ x.valid = true ∧ 1 ≤ k ∧ k ≤ 16 := by
  rcases s.enc.preprocess_cases k with ⟨-, hnone⟩ | ⟨⟨hk1, hk16, -⟩, hsome⟩
  · rw [hnone] at hx; contradiction
  · rw [hsome] at hx
    obtain rfl := Option.some.inj hx
    have hk : (BitVec.ofNat 5 k).toNat = k := by rw [BitVec.toNat_ofNat]; omega
    have hceil : ceilDiv s.enc.nfrag.toNat k ≤ s.enc.nfrag.toNat := ceilDiv_le_self hk1
    have hngen : (BitVec.ofNat 8 (ceilDiv s.enc.nfrag.toNat k)).toNat = ceilDiv s.enc.nfrag.toNat k := by
      rw [BitVec.toNat_ofNat]; omega
    refine ⟨{ nfrag := h.nfrag, srclenLength := h.srclenLength, srclen := h.srclen, k := hk.trans_le hk16, m := ?_,
              n := h.nfrag, ngen := hngen.trans_le (hceil.trans h.nfrag),
              valid := fun _ => ⟨hk1.trans_eq hk.symm, ?_⟩, cpkn := h.cpkn, cpkg := h.cpkg, cpkm := h.cpkm,
              cpkpreLength := h.cpkpreLength, cpkpostLength := h.cpkpostLength }, rfl, hk1, hk16⟩
    · simp only [State.setEnc_enc, State.setEnc_params]
      split
      · exact h.lenOf_le 0
      · exact Nat.zero_le _
    · simp only [State.setEnc_enc, hk, hngen]

/-- The description of the packets in CPK is in range (R32). -/
theorem describe {count g : Nat} (hp : s.params.Ok) (hcount : count ≤ s.params.cMax) (hg : g ≤ 16) (gi : Nat) :
    (s.setEnc (s.enc.describe count g gi)).EncoderOk := by
  obtain ⟨-, -, ⟨-, hc⟩, -⟩ := hp
  have hcpkn : (BitVec.ofNat 8 count).toNat = count := by rw [BitVec.toNat_ofNat]; omega
  have hcpkg : (BitVec.ofNat 5 g).toNat = g := by rw [BitVec.toNat_ofNat]; omega
  exact { nfrag := h.nfrag, srclenLength := h.srclenLength, srclen := h.srclen, k := h.k, m := h.m, n := h.n,
          ngen := h.ngen, valid := h.valid, cpkn := hcpkn.trans_le hcount, cpkg := hcpkg.trans_le hg, cpkm := h.m,
          cpkpreLength := h.cpkpreLength, cpkpostLength := h.cpkpostLength }

/-- FRLEN keeps every staged length in range (R30). -/
theorem setLength (f : Nat) {b : Byte} (hb : b.toNat ≤ s.params.mMax) :
    (s.setEnc { s.enc with srclen := s.enc.srclen.set f b }).EncoderOk :=
  { nfrag := h.nfrag, srclenLength := List.length_set.trans h.srclenLength,
    srclen := fun x hx => (List.mem_or_eq_of_mem_set hx).elim (h.srclen x) fun hxb => hxb ▸ hb,
    k := h.k, m := h.m, n := h.n, ngen := h.ngen, valid := h.valid, cpkn := h.cpkn, cpkg := h.cpkg, cpkm := h.cpkm,
    cpkpreLength := h.cpkpreLength, cpkpostLength := h.cpkpostLength }

end State.EncoderOk

/-- A packet that goes to a slot inside CPK fits there: its vector has at most 16 bytes, its payload at most M_MAX. -/
theorem State.Inv.encodeOne {s : State} (h : s.Inv) (gi : Nat) {j : Nat} (hj : j < s.params.cMax) :
    (s.encodeOne gi j).Inv := by
  have he := h.encoder
  refine ((h.writeRun (sp := .cpk) (fun i hi => ?_) nofun).setCg _).setEnc ?_ h.valid_of_active
  · have hg := (s.enc.genSize_le gi).trans he.k
    have hm := he.m
    simp only [List.length_append, CgRegs.drawMany_length, State.payload_length] at hi
    rw [cellKey_zero_add]
    exact inShape_cpk h.params hj (by unfold Params.wMax; omega)
  · exact { nfrag := he.nfrag, srclenLength := he.srclenLength, srclen := he.srclen, k := he.k, m := he.m, n := he.n,
            ngen := he.ngen, valid := he.valid, cpkn := he.cpkn, cpkg := he.cpkg, cpkm := he.cpkm,
            cpkpreLength := List.length_set.trans he.cpkpreLength,
            cpkpostLength := List.length_set.trans he.cpkpostLength }

theorem State.Inv.encodeMany {s : State} (h : s.Inv) (gi : Nat) {j n : Nat} (hn : j + n ≤ s.params.cMax) :
    (s.encodeMany gi j n).Inv := by
  induction n generalizing s j with
  | zero => exact h
  | succ n ih => exact ih (h.encodeOne gi (by omega)) (by rw [State.encodeOne_params]; omega)

/-! ### DEC -/

/-- No row is both successful and redundant, so the two counts are at most the number of rows (R190). -/
theorem countP_succ_add_countP_red_le (k : Nat) (rows : Matrix) :
    (rows.map (classifyRow k)).countP (·.succ) + (rows.map (classifyRow k)).countP (·.red) ≤ rows.length := by
  have hle : (rows.map (classifyRow k)).countP (·.red) ≤ (rows.map (classifyRow k)).countP fun c => !c.succ := by
    refine List.countP_mono_left fun c hc hred => ?_
    obtain ⟨row, -, rfl⟩ := List.mem_map.1 hc
    simpa [hred] using classifyRow_exclusive k row
  have hlen := List.length_eq_countP_add_countP (l := rows.map (classifyRow k)) (fun c => c.succ)
  simp only [List.length_map, Bool.not_eq_true, Bool.decide_eq_false] at hlen
  omega

/-- A row of the configured shape fits into DPKT and DRES (R33). -/
theorem State.DecoderOk.width_le {s : State} (h : s.DecoderOk) : s.dec.width ≤ s.params.wMax := by
  have hk := h.k
  have hm := h.m
  unfold DecRegs.width Params.wMax
  omega

theorem innovative_length_le (cs : List RowClass) : (innovative cs).length ≤ cs.length :=
  (List.length_filter_le ..).trans_eq List.length_range

/-- An entry of a register array below the number of rows, after the result is written (R190). -/
theorem setPrefix_getD_of_lt {α : Type} {old new : List α} {i : Nat} (hn : i < new.length)
    (ho : new.length ≤ old.length) (d : α) : (setPrefix old new).getD i d = new[i] := by
  rw [List.getD_eq_getElem?_getD, setPrefix_getElem?, if_pos ⟨by omega, hn⟩, List.getElem?_eq_getElem hn,
    Option.getD_some]

/-- The result registers are in range, whatever selection of rows DECRUN or DECGEN lists (R33, R34, R41, R190). -/
theorem State.DecoderOk.withResult {s : State} (h : s.DecoderOk) {sel : List Nat}
    (hsel : sel.length ≤ s.dec.rows.toNat) :
    (s.setDec ((s.dec.withResult s.classes (reduce s.dec.k.toNat s.accumulated).2).withSelection sel)).DecoderOk := by
  obtain ⟨hrows, hwidth⟩ := s.accumulated_shape
  obtain ⟨hlen, -, hrankK, hrankRows⟩ := reduce_shape s.dec.k.toNat s.dec.width s.accumulated hwidth
  have hcount := countP_succ_add_countP_red_le s.dec.k.toNat (reduce s.dec.k.toNat s.accumulated).1
  have hk := h.k
  have hP := h.rows
  have hbyte := s.dec.rows.isLt
  rw [hrows] at hrankRows
  rw [hlen, hrows] at hcount
  have toByte : ∀ n ≤ s.dec.rows.toNat, (BitVec.ofNat 8 n).toNat = n := fun n hn => by
    rw [BitVec.toNat_ofNat]; omega
  have hresRows : (BitVec.ofNat 8 s.classes.length).toNat = s.dec.rows.toNat := by
    rw [s.classes_length, toByte _ le_rfl]
  have hrank : (BitVec.ofNat 5 (reduce s.dec.k.toNat s.accumulated).2).toNat =
      (reduce s.dec.k.toNat s.accumulated).2 := by rw [BitVec.toNat_ofNat]; omega
  refine { k := hk, m := h.m, rows := hP, resRows := hresRows.trans_le hP, rankK := hrank.trans_le hrankK,
           rankRows := (hrank.trans_le hrankRows).trans_eq hresRows.symm, classes := ?_,
           nsel := ((toByte _ hsel).trans_le hsel).trans_eq hresRows.symm, exclusive := fun r hr => ?_,
           succLength := (setPrefix_length ..).trans h.succLength,
           redLength := (setPrefix_length ..).trans h.redLength,
           pivLength := (setPrefix_length ..).trans h.pivLength,
           selLength := (setPrefix_length ..).trans h.selLength }
  · calc _ = s.classes.countP (·.succ) + s.classes.countP (·.red) :=
          congrArg₂ (· + ·) (toByte _ ((Nat.le_add_right ..).trans hcount))
            (toByte _ ((Nat.le_add_left ..).trans hcount))
      _ ≤ s.dec.rows.toNat := hcount
      _ = _ := hresRows.symm
  · have hr : r < s.classes.length := by rw [s.classes_length]; exact hr.trans_eq hresRows
    have hall : s.classes.length ≤ s.params.pMax := by rw [s.classes_length]; exact hP
    simp only [State.setDec_dec, DecRegs.withSelection, DecRegs.withResult]
    rw [setPrefix_getD_of_lt (by simpa using hr) (by simpa [h.succLength] using hall),
      setPrefix_getD_of_lt (by simpa using hr) (by simpa [h.redLength] using hall)]
    simp only [State.classes, List.getElem_map]
    rintro ⟨hsucc, hred⟩
    have hnot := classifyRow_exclusive s.dec.k.toNat
      ((reduce s.dec.k.toNat s.accumulated).1[r]'(by rwa [hlen, hrows, ← s.classes_length]))
    rw [hsucc, hred] at hnot
    contradiction

/-- Result rows that fit into DRES (R64). -/
theorem State.Inv.writeRows {s : State} (h : s.Inv) {r : Nat} {m : Matrix} (hr : r + m.length ≤ s.params.pMax)
    (hw : ∀ row ∈ m, row.length ≤ s.params.wMax) : (s.writeRows r m).Inv := by
  induction m generalizing s r with
  | nil => exact h
  | cons row m ih =>
    rw [List.length_cons] at hr
    refine ih (h.writeRun (sp := .dres) (fun j hj => ?_) nofun)
      (by simp only [State.writeRun, State.setMem_params]; omega) fun row' hrow' => hw row' (List.mem_cons_of_mem _ hrow')
    rw [List.length_map] at hj
    rw [cellKey_zero_add]
    exact inShape_dres h.params (by omega) (hj.trans_le (hw row List.mem_cons_self))

theorem State.Inv.reduceAndClassify {s : State} (h : s.Inv) {sel : List Nat} (hsel : sel.length ≤ s.dec.rows.toNat) :
    (s.reduceAndClassify.setDec (s.reduceAndClassify.dec.withSelection sel)).Inv := by
  obtain ⟨hrows, hwidth⟩ := s.accumulated_shape
  obtain ⟨hlen, hwidth', -⟩ := reduce_shape s.dec.k.toNat s.dec.width s.accumulated hwidth
  have hP := h.decoder.rows
  have hwrites : (s.writeRows 0 (reduce s.dec.k.toNat s.accumulated).1).Inv :=
    h.writeRows (by omega) fun row hrow => (hwidth' row hrow).trans_le h.decoder.width_le
  obtain ⟨hparams, -⟩ := s.writeRows_frame 0 (reduce s.dec.k.toNat s.accumulated).1
  exact hwrites.setDec ((h.decoder.withResult hsel).congr hparams rfl)

/-! ### FC -/

/-- One input byte puts one byte out, but for the 254th of a full run, which puts out two (R243). -/
theorem CobsState.push_cases (x : CobsState) (b : Byte) :
    ((x.push b).out.length = x.out.length + 1 ∧ (x.push b).dist ≤ x.dist + 1) ∨
      ((x.push b).out.length = x.out.length + 2 ∧ x.dist = 254) := by
  unfold CobsState.push
  split
  · left; simp [CobsState.newSlot]
  · dsimp only
    split
    · next hrun => right; simpa [CobsState.newSlot] using hrun
    · left; simp

/-- The encoder has put one byte out for each byte read and one more, until a full run ends with byte 254 (R243). -/
theorem foldl_push_length (d : List Byte) (hd : d.length ≤ 254) :
    let x := d.foldl CobsState.push CobsState.start
    (x.out.length = d.length + 1 ∧ x.dist ≤ d.length + 1) ∨ (x.out.length = 256 ∧ d.length = 254) := by
  induction d using List.reverseRecOn with
  | nil => exact .inl ⟨rfl, le_rfl⟩
  | append_singleton d b ih =>
    simp only [List.length_append, List.length_singleton] at hd ⊢
    rw [List.foldl_append, List.foldl_cons, List.foldl_nil]
    have hpush := (d.foldl CobsState.push CobsState.start).push_cases b
    have hprev := ih (by omega)
    omega

/-- COBS of at most 254 bytes is one byte longer than its input (R243). -/
theorem cobsEncode_length {d : List Byte} (hd : d.length ≤ 254) : (cobsEncode d).length = d.length + 1 := by
  unfold cobsEncode CobsState.finish
  rcases foldl_push_length d hd with ⟨hout, -⟩ | ⟨hout, hfull⟩
  · rw [if_pos (by rw [hout]; exact Nat.succ_le_succ hd), List.length_set, hout]
  · rw [if_neg (by rw [hout]; decide), List.length_dropLast, hout, hfull]

/-- A wire frame is six bytes longer than its payload (R240). -/
theorem wireFrame_length {p : List Byte} (hp : p.length ≤ 252) : (wireFrame p).length = p.length + 6 := by
  unfold wireFrame
  simp only [List.length_append, List.length_cons, List.length_nil]
  rw [cobsEncode_length (by simp only [List.length_cons]; omega)]
  simp only [List.length_cons]

/-- A payload that the checks deliver is the content without its CRC and its length (R251). -/
theorem length_of_checkContent {d payload : List Byte} (h : checkContent d = .deliver payload) :
    d.length = payload.length + 2 := by
  rcases checkContent_cases d with ⟨-, hd⟩ | ⟨-, hd⟩ | ⟨crc, len, p, rfl, ⟨-, hd⟩ | ⟨-, -, hd⟩ | ⟨-, -, hd⟩⟩ <;>
    rw [hd] at h <;> cases h
  rfl

/-- A payload that the checks deliver is at least six bytes shorter than the frame (R240, R251). -/
theorem length_le_of_checkFrame {buf payload : List Byte} (h : checkFrame buf = .deliver payload) :
    payload.length + 6 ≤ buf.length := by
  rcases checkFrame_cases buf with ⟨-, hdrop⟩ | ⟨-, -, hdrop⟩ | ⟨-, -, hcontent⟩
  · rw [hdrop] at h; cases h
  · rw [hdrop] at h; cases h
  · have hdecoded := cobsDecode_length ((buf.drop 2).take (buf.length - 3))
    rw [length_of_checkContent (hcontent ▸ h), List.length_take] at hdecoded
    omega

/-- A codec output that fits into FOUT (R38, R64). -/
theorem State.Inv.putFout {s : State} (h : s.Inv) {bs : List Byte} (hbs : bs.length ≤ 258) : (s.putFout bs).Inv := by
  have hc := h.codec
  refine (h.writeRun (sp := .fout) (fun j hj => ?_) nofun).setFc
    { foutn := ?_, rxn := hc.rxn, rxpayn := hc.rxpayn, unsynced := hc.unsynced, synced := fun hsync => ?_ }
  · simp only [Space.inShape, Config.frameMax, decide_eq_true_eq]; omega
  · rw [State.setFc_fc, BitVec.toNat_ofNat]; omega
  · refine ⟨(hc.synced hsync).1, ?_⟩
    rw [State.readByte_setFc, State.readByte_writeRun, if_neg (by simp)]
    exact (hc.synced hsync).2

/-- The codec back to searching for a start byte (R250, R251). -/
theorem State.Inv.unsync {s : State} (h : s.Inv) {n : Byte} (hn : n.toNat ≤ 252) (cause : BitVec 3) :
    (s.setFc { s.fc with rxsync := false, rxn := 0#9, rxpayn := n, frCause := cause }).Inv :=
  h.setFc { foutn := h.codec.foutn, rxn := Nat.zero_le _, rxpayn := hn, unsynced := fun _ => rfl, synced := nofun }

theorem State.Inv.collected {s : State} (h : s.Inv) (a : Byte) (hsync : s.fc.rxsync = true) (hroom : s.fc.rxn ≠ 258#9) :
    (s.collected a).Inv ∧ (s.collected a).fc.rxn.toNat ≤ 258 := by
  obtain ⟨hrxn1, hstart⟩ := h.codec.synced hsync
  have hlt : s.fc.rxn.toNat < 258 := lt_of_le_of_ne h.codec.rxn fun he => hroom (BitVec.eq_of_toNat_eq he)
  have hnext : (s.fc.rxn + 1#9).toNat = s.fc.rxn.toNat + 1 := by
    rw [BitVec.toNat_add]; simp; omega
  have hroom' : (s.fc.rxn + 1#9).toNat ≤ 258 := by omega
  refine ⟨(h.writeByte (by simpa [Space.inShape] using hlt) fun _ _ => hrxn1).setFc
    { foutn := h.codec.foutn, rxn := hroom', rxpayn := h.codec.rxpayn, unsynced := fun hu => ?_,
      synced := fun _ => ⟨?_, ?_⟩ }, hroom'⟩
  · rw [State.setFc_fc, hsync] at hu; contradiction
  · rw [State.setFc_fc, hnext]; omega
  · rw [State.readByte_setFc, State.readByte_writeByte, if_neg (by omega), hstart]

/-! ### SC -/

/-- The session that SSTART creates is in range: its registers are those that `Preprocess` has captured (R214). -/
theorem State.SessionOk.create {s : State} {x : EncRegs} (he : (s.setEnc x).EncoderOk) (hv : x.valid = true)
    {c : CfgRegs} (hk1 : 1 ≤ c.k.toNat) (hk16 : c.k.toNat ≤ 16) (y : CgRegs) :
    (((s.setEnc x).setCg y).setSess (SessRegs.create c x)).SessionOk := by
  have hk : (BitVec.ofNat 5 c.k.toNat).toNat = c.k.toNat := by rw [BitVec.toNat_ofNat]; omega
  exact { active := fun _ => ⟨hv, hk1.trans_eq hk.symm⟩, absent := nofun, k := hk.trans_le hk16, genCount := he.ngen,
          totalFrags := he.n, fsize := he.m }

/-- Registers of a present session that R41 does not bound. -/
theorem State.SessionOk.advance {s : State} (h : s.SessionOk) (hactive : s.sess.active = true)
    (gen frag seq mgen pre post : Byte) :
    (s.setSess
      { s.sess with curGen := gen, curFrag := frag, metaSeq := seq, metaGen := mgen, metaPre := pre,
                    metaPost := post }).SessionOk :=
  { active := h.active, absent := fun ha => absurd (ha.symm.trans hactive) (by decide), k := h.k,
    genCount := h.genCount, totalFrags := h.totalFrags, fsize := h.fsize }

/-- Present or absent, the session is at 0 after SSTOP (R210, R218). -/
theorem State.SessionOk.absentAfter (s : State) : (s.setSess SessRegs.absent).SessionOk :=
  { active := nofun, absent := fun _ => rfl, k := Nat.zero_le _, genCount := Nat.zero_le _,
    totalFrags := Nat.zero_le _, fsize := Nat.zero_le _ }

/-! ### Every effect of a command -/

/-- What a command does to a state that meets R41 keeps it. -/
theorem Effect.inv {s u : State} {i : Instr} (heff : Effect s i u) (h : s.Inv) : u.Inv := by
  have he := h.encoder
  have hd := h.decoder
  have hc := h.codec
  have hvalid := fun ha => h.valid_of_active ha
  cases heff with
  | nothing => exact h
  | frcnt a ha => exact h.setEnc { he with nfrag := ha } hvalid
  | frlen a b hb => exact h.setEnc (he.setLength a.toNat hb) hvalid
  | frwr a b c ha hb => exact h.writeByte (inShape_src h.params ha hb) nofun
  | dpcnt a ha => exact h.setDec { hd with rows := ha }
  | dpwr a b c ha hb => exact h.writeByte (inShape_dpkt h.params ha (hb.trans_le hd.width_le)) nofun
  | fiwr a b ha => exact h.writeByte (by simpa [Space.inShape] using ha) nofun
  | lfseed | lfreset | lfgen => exact h.setCg _
  | encprep a x hx =>
    obtain ⟨hx, hxvalid, -⟩ := he.preprocess hx
    exact h.setEnc hx fun _ => hxvalid
  | encpre a b count hcount =>
    have hmany := h.encodeMany a.toNat (j := 0) (n := count) (by rwa [Nat.zero_add])
    have hg := (s.enc.genSize_le a.toNat).trans he.k
    have hparams := (s.encodeMany_frame a.toNat 0 count).1
    exact hmany.setEnc (hmany.encoder.describe hmany.params (by rwa [hparams]) hg a.toNat)
      hmany.valid_of_active
  | deccfg a b ha hb =>
    have hk : (BitVec.ofNat 5 a.toNat).toNat = a.toNat := by rw [BitVec.toNat_ofNat]; omega
    exact h.setDec { k := hk.trans_le ha, m := hb, rows := Nat.zero_le _, resRows := Nat.zero_le _,
                     rankK := Nat.zero_le _, rankRows := le_rfl, classes := le_rfl, nsel := le_rfl, exclusive := nofun,
                     succLength := hd.succLength, redLength := hd.redLength, pivLength := hd.pivLength,
                     selLength := hd.selLength }
  | decrun => exact h.reduceAndClassify (Nat.zero_le _)
  | decgen => exact h.reduceAndClassify ((innovative_length_le _).trans_eq s.classes_length)
  | cfgset | cfgload => exact h.setCfg _
  | sstart x hfree hx =>
    obtain ⟨hx, hxvalid, hk1, hk16⟩ := he.preprocess hx
    exact ((h.setEnc hx fun _ => hxvalid).setCg _).setSess (.create hx hxvalid hk1 hk16 _)
  | sfetch pre post hactive =>
    have hone := h.encodeOne s.enc.gen.toNat (j := 0) (by obtain ⟨-, -, ⟨hc, -⟩, -⟩ := h.params; exact hc)
    have hg := (s.enc.genSize_le s.enc.gen.toNat).trans he.k
    obtain ⟨-, -, ⟨hcMax, -⟩, -⟩ := h.params
    have hdesc := hone.setEnc (hone.encoder.describe hone.params hcMax hg s.enc.gen.toNat) hvalid
    exact hdesc.setSess (hdesc.session.advance hactive ..)
  | sadv hactive =>
    exact (h.setSess (h.session.advance hactive ..)).setEnc { he with } hvalid
  | sstop =>
    have hclear : (s.setEnc { s.enc with nfrag := 0#8, valid := false }).EncoderOk :=
      { he with nfrag := Nat.zero_le _, valid := nofun }
    exact ((h.setSess (.absentAfter s)).setEnc (hclear.congr rfl rfl) nofun).setCg _
  | cobsenc a ha =>
    exact h.putFout (by rw [cobsEncode_length] <;> rw [s.finBytes_length] <;> omega)
  | cobsdec a =>
    have hlen := cobsDecode_length (s.finBytes a.toNat)
    rw [s.finBytes_length] at hlen
    exact h.putFout (by omega)
  | cobsdecFails a => exact h.setFc { hc with foutn := Nat.zero_le _ }
  | frbuild a ha =>
    exact h.putFout (by rw [wireFrame_length] <;> rw [s.finBytes_length] <;> omega)
  | rxStart hsearch =>
    have hidle : s.fc.rxsync ≠ true := by rw [hsearch]; decide
    have hfirst := h.writeByte (sp := .rxbuf) (k := 0) (v := 0xFF#8) rfl fun _ hs => absurd hs hidle
    exact hfirst.setFc { foutn := hc.foutn, rxn := (by decide : 1 ≤ 258), rxpayn := hc.rxpayn, unsynced := nofun,
                         synced := fun _ => ⟨le_refl 1, by simp [State.readByte_writeByte]⟩ }
  | rxOverflow a cause => exact h.unsync hc.rxpayn _
  | rxCollect a hsync hroom => exact (h.collected a hsync hroom).1
  | rxDrop a cause hsync hroom =>
    have ht := (h.collected a hsync hroom).1
    exact ht.unsync ht.codec.rxpayn _
  | rxDeliver a payload hsync hroom hdeliver =>
    obtain ⟨ht, hrxn⟩ := h.collected a hsync hroom
    have hlen := length_le_of_checkFrame hdeliver
    rw [State.readRun_length] at hlen
    have hpay : (BitVec.ofNat 8 payload.length).toNat = payload.length := by rw [BitVec.toNat_ofNat]; omega
    have hwritten := ht.writeRun (sp := .rxpay) (k := 0) (bs := payload)
      (fun j hj => by simp only [Space.inShape, Config.payloadMax, decide_eq_true_eq]; omega) nofun
    exact hwritten.unsync (hpay.trans_le (by omega)) 0#3

/-! ### Reset, every step, every run -/

/-- The reset state meets R41, whatever the capacities (R291). -/
theorem State.resetOf_inv {p : Params} (hp : p.Ok) (epoch : Nat) : (State.resetOf p epoch).Inv :=
  { params := hp
    errlog := BitVec.getLsbD_zero
    encoder :=
      { nfrag := Nat.zero_le _, srclenLength := List.length_replicate,
        srclen := fun x hx => by rw [List.eq_of_mem_replicate hx]; exact Nat.zero_le _,
        k := Nat.zero_le _, m := Nat.zero_le _, n := Nat.zero_le _, ngen := Nat.zero_le _, valid := nofun,
        cpkn := Nat.zero_le _, cpkg := Nat.zero_le _, cpkm := Nat.zero_le _, cpkpreLength := List.length_replicate,
        cpkpostLength := List.length_replicate }
    decoder :=
      { k := Nat.zero_le _, m := Nat.zero_le _, rows := Nat.zero_le _, resRows := Nat.zero_le _, rankK := le_rfl,
        rankRows := le_rfl, classes := le_rfl, nsel := le_rfl, exclusive := nofun, succLength := List.length_replicate,
        redLength := List.length_replicate, pivLength := List.length_replicate, selLength := List.length_replicate }
    session := .absentAfter (State.resetOf p epoch)
    codec := { foutn := Nat.zero_le _, rxn := Nat.zero_le _, rxpayn := Nat.zero_le _, unsynced := fun _ => rfl,
               synced := nofun }
    memories := fun sp => by rw [State.resetOf_get]; exact ⟨rfl, nofun⟩ }

/-- Settles O11: every register is 0 and no byte is listed, and the reference capacities are allowed. -/
theorem resetMeetsTheInvariants : Obligations.ResetMeetsTheInvariants :=
  ⟨fun _ epoch hp => State.resetOf_inv hp epoch, State.resetOf_inv (by decide) 0⟩

theorem exec_inv {i : Instr} {s t : State} (h : s.Inv) (ht : exec i s = .next t) : t.Inv := by
  obtain ⟨r, hr, heff⟩ := exec_effect i s
  obtain rfl : r.settle = t := Host.Outcome.next.inj (hr.symm.trans ht)
  exact Reply.inv_settle (heff.inv h)

theorem execWord_inv {cw : CommandWord} {s t : State} (h : s.Inv) (ht : execWord cw s = .next t) : t.Inv := by
  cases hcw : decode cw with
  | ok i => exact exec_inv h ((execWord_of_ok hcw s).symm.trans ht)
  | error e =>
    obtain rfl : s.rejectWord = t := Host.Outcome.next.inj ((execWord_of_error hcw s).symm.trans ht)
    exact h.takeError .illegalCommand

/-- What a step can be: idle, a reset, or a word taken from the host and run (R80, R284, R290). -/
theorem step_cases {s t : State} (ht : step s = .next t) :
    t = s ∨ (∃ rest, t = (s.setInbox rest).applyReset) ∨ ∃ cw rest, execWord cw (s.setInbox rest) = .next t := by
  match hin : s.inbox with
  | [] => exact .inl (Host.Outcome.next.inj (ht.symm.trans (step_of_idle hin)))
  | .reset :: rest => exact .inr (.inl ⟨rest, Host.Outcome.next.inj (ht.symm.trans (step_of_reset hin))⟩)
  | .command cw :: rest => exact .inr (.inr ⟨cw, rest, (step_of_command hin).symm.trans ht⟩)

/-- Settles O12: idle nothing changes, reset gives the reset state, and a word has an effect that keeps R41. -/
theorem stepKeepsTheInvariants : Obligations.StepKeepsTheInvariants := by
  intro s t h ht
  rcases step_cases ht with rfl | ⟨rest, rfl⟩ | ⟨cw, rest, hword⟩
  · exact h
  · exact (State.resetOf_inv h.params _).setInbox rest
  · exact execWord_inv (h.setInbox rest) hword

/-- No step changes the capacities (R7, R9). -/
theorem step_params {s t : State} (ht : step s = .next t) : t.params = s.params := by
  rcases step_cases ht with rfl | ⟨rest, rfl⟩ | ⟨cw, rest, hword⟩
  · rfl
  · rfl
  · obtain ⟨r, hr, hhost⟩ := execWord_completes cw (s.setInbox rest)
    obtain rfl : r.settle = t := Host.Outcome.next.inj (hr.symm.trans hword)
    exact congrArg (·.1) (r.settle_host.trans hhost)

/-- Settles O13, by induction over the run, from the reset state and the step. -/
theorem reachableStatesMeetTheInvariants : Obligations.ReachableStatesMeetTheInvariants := by
  intro p s hp hs
  induction hs with
  | reset epoch => exact ⟨State.resetOf_inv hp epoch, rfl⟩
  | present e _ ih => exact ⟨ih.1.setInbox _, ih.2⟩
  | step _ ht ih => exact ⟨stepKeepsTheInvariants _ _ ih.1 ht, (step_params ht).trans ih.2⟩

end Sys2Proof.Machine
end

section
/-! PROOFS. The column "written by" of R28 to R39: unit by unit and memory by memory, an effect that changes a register
is one of a command that the register's row names. -/

open Sys2Proof Sys2Proof.Certificates

namespace Sys2Proof.Machine

/-! ### The rows of R29 to R38, unit by unit -/

/-- R29: LFSEED, SSTART; LFSEED, LFRESET, LFGEN, ENCPRE, SSTART, SFETCH, SSTOP. -/
structure GeneratorFrame (x y : CgRegs) (i : Instr) : Prop where
  seed : y.seed ≠ x.seed → HasOpcode [0x40#8, 0x72#8] i
  stream : y.state ≠ x.state ∨ y.count ≠ x.count →
    HasOpcode [0x40#8, 0x41#8, 0x42#8, 0x51#8, 0x72#8, 0x73#8, 0x75#8] i

/-- R30, R31, R32: FRCNT, SSTOP; FRLEN; ENCPREP, SSTART, SSTOP; ENCPREP, SSTART; with SADV; ENCPRE, SFETCH. -/
structure EncoderFrame (x y : EncRegs) (i : Instr) : Prop where
  nfrag : y.nfrag ≠ x.nfrag → HasOpcode [0x10#8, 0x75#8] i
  srclen : y.srclen ≠ x.srclen → HasOpcode [0x11#8] i
  valid : y.valid ≠ x.valid → HasOpcode [0x50#8, 0x72#8, 0x75#8] i
  captured : y.k ≠ x.k ∨ y.m ≠ x.m ∨ y.n ≠ x.n ∨ y.ngen ≠ x.ngen → HasOpcode [0x50#8, 0x72#8] i
  gen : y.gen ≠ x.gen → HasOpcode [0x50#8, 0x72#8, 0x74#8] i
  described : y.cpkn ≠ x.cpkn ∨ y.cpkg ≠ x.cpkg ∨ y.cpkgen ≠ x.cpkgen ∨ y.cpkm ≠ x.cpkm →
    HasOpcode [0x51#8, 0x73#8] i
  states : y.cpkpre ≠ x.cpkpre ∨ y.cpkpost ≠ x.cpkpost → HasOpcode [0x51#8, 0x73#8] i

/-- R33, R34: DECCFG; DPCNT, DECCFG; DECRUN, DECGEN, DECCFG; DECRUN, DECGEN; DECGEN. -/
structure DecoderFrame (x y : DecRegs) (i : Instr) : Prop where
  shape : y.k ≠ x.k ∨ y.m ≠ x.m → HasOpcode [0x60#8] i
  rows : y.rows ≠ x.rows → HasOpcode [0x16#8, 0x60#8] i
  result : y.resRows ≠ x.resRows ∨ y.rank ≠ x.rank ∨ y.nsucc ≠ x.nsucc ∨ y.nred ≠ x.nred ∨ y.nsel ≠ x.nsel →
    HasOpcode [0x61#8, 0x62#8, 0x60#8] i
  classes : y.succ ≠ x.succ ∨ y.red ≠ x.red ∨ y.piv ≠ x.piv → HasOpcode [0x61#8, 0x62#8] i
  sel : y.sel ≠ x.sel → HasOpcode [0x62#8] i

/-- R35: CFGSET; CFGLOAD. -/
structure ConfigFrame (x y : CfgRegs) (i : Instr) : Prop where
  fields : y.k ≠ x.k ∨ y.red ≠ x.red ∨ y.seed ≠ x.seed → HasOpcode [0x70#8] i
  loaded : y.loaded ≠ x.loaded → HasOpcode [0x71#8] i

/-- R36, R37: SSTART, SSTOP; with SADV; with SFETCH, SADV; with SFETCH. -/
structure SessionFrame (x y : SessRegs) (i : Instr) : Prop where
  fixed : y.active ≠ x.active ∨ y.k ≠ x.k ∨ y.red ≠ x.red ∨ y.seed ≠ x.seed ∨ y.genCount ≠ x.genCount ∨
    y.totalFrags ≠ x.totalFrags ∨ y.fsize ≠ x.fsize → HasOpcode [0x72#8, 0x75#8] i
  curGen : y.curGen ≠ x.curGen → HasOpcode [0x72#8, 0x74#8, 0x75#8] i
  curFrag : y.curFrag ≠ x.curFrag → HasOpcode [0x72#8, 0x73#8, 0x74#8, 0x75#8] i
  metadata : y.metaSeq ≠ x.metaSeq ∨ y.metaGen ≠ x.metaGen ∨ y.metaPre ≠ x.metaPre ∨ y.metaPost ≠ x.metaPost →
    HasOpcode [0x73#8, 0x72#8, 0x75#8] i

/-- R38: COBSENC, COBSDEC, FRBUILD; RXBYTE. -/
structure CodecFrame (x y : FcRegs) (i : Instr) : Prop where
  foutn : y.foutn ≠ x.foutn → HasOpcode [0x81#8, 0x82#8, 0x83#8] i
  receive : y.rxsync ≠ x.rxsync ∨ y.rxn ≠ x.rxn ∨ y.rxpayn ≠ x.rxpayn ∨ y.frCause ≠ x.frCause → HasOpcode [0x84#8] i

/-- The opcodes of the commands that write a memory (R39). -/
def Space.writers : Space → List Byte
  | .src => [0x12#8]
  | .cpk => [0x51#8, 0x73#8]
  | .dpkt => [0x17#8]
  | .dres => [0x61#8, 0x62#8]
  | .fin => [0x1C#8]
  | .fout => [0x81#8, 0x82#8, 0x83#8]
  | .rxbuf | .rxpay => [0x84#8]

/-- R39: a memory is written only by its writers. -/
def MemoryFrame (x y : Memories) (i : Instr) : Prop :=
  ∀ sp, y.get sp ≠ x.get sp → HasOpcode (Space.writers sp) i

section Unchanged

variable (i : Instr)

theorem GeneratorFrame.refl (x : CgRegs) : GeneratorFrame x x i := by constructor <;> simp
theorem EncoderFrame.refl (x : EncRegs) : EncoderFrame x x i := by constructor <;> simp
theorem DecoderFrame.refl (x : DecRegs) : DecoderFrame x x i := by constructor <;> simp
theorem ConfigFrame.refl (x : CfgRegs) : ConfigFrame x x i := by constructor <;> simp
theorem SessionFrame.refl (x : SessRegs) : SessionFrame x x i := by constructor <;> simp
theorem CodecFrame.refl (x : FcRegs) : CodecFrame x x i := by constructor <;> simp
theorem MemoryFrame.refl (x : Memories) : MemoryFrame x x i := fun _ h => absurd rfl h

end Unchanged

/-! ### Each unit under each effect -/

section Composite

variable (s : State)

section Run

variable (sp : Space) (k : Nat) (bs : List Byte)

@[simp] theorem State.writeRun_errlog : (s.writeRun sp k bs).errlog = s.errlog := rfl
@[simp] theorem State.writeRun_cg : (s.writeRun sp k bs).cg = s.cg := rfl
@[simp] theorem State.writeRun_enc : (s.writeRun sp k bs).enc = s.enc := rfl
@[simp] theorem State.writeRun_dec : (s.writeRun sp k bs).dec = s.dec := rfl
@[simp] theorem State.writeRun_cfg : (s.writeRun sp k bs).cfg = s.cfg := rfl
@[simp] theorem State.writeRun_sess : (s.writeRun sp k bs).sess = s.sess := rfl
@[simp] theorem State.writeRun_fc : (s.writeRun sp k bs).fc = s.fc := rfl

end Run

/-- The state on which a delivery ends (R251). -/
theorem State.deliver_state (payload : List Byte) :
    (s.deliver payload).state =
      (s.writeRun .rxpay 0 payload).setFc
        { s.fc with
          rxsync := false, rxn := 0#9, rxpayn := BitVec.ofNat 8 payload.length, frCause := 0#3 } := rfl

@[simp] theorem State.encodeMany_errlog (gi j n : Nat) : (s.encodeMany gi j n).errlog = s.errlog := by
  obtain ⟨-, -, -, -, herrlog, -⟩ := s.encodeMany_frame gi j n
  exact herrlog

@[simp] theorem State.encodeMany_dec (gi j n : Nat) : (s.encodeMany gi j n).dec = s.dec := by
  obtain ⟨-, -, -, -, -, hdec, -⟩ := s.encodeMany_frame gi j n
  exact hdec

@[simp] theorem State.encodeMany_cfg (gi j n : Nat) : (s.encodeMany gi j n).cfg = s.cfg := by
  obtain ⟨-, -, -, -, -, -, hcfg, -⟩ := s.encodeMany_frame gi j n
  exact hcfg

@[simp] theorem State.encodeMany_sess (gi j n : Nat) : (s.encodeMany gi j n).sess = s.sess := by
  obtain ⟨-, -, -, -, -, -, -, hsess, -⟩ := s.encodeMany_frame gi j n
  exact hsess

@[simp] theorem State.encodeMany_fc (gi j n : Nat) : (s.encodeMany gi j n).fc = s.fc := by
  obtain ⟨-, -, -, -, -, -, -, -, hfc, -⟩ := s.encodeMany_frame gi j n
  exact hfc

/-- Coding packets writes no encoder register but CPKPRE and CPKPOST. -/
theorem State.encodeMany_enc (gi j n : Nat) :
    (s.encodeMany gi j n).enc =
      { s.enc with
        cpkpre := (s.encodeMany gi j n).enc.cpkpre, cpkpost := (s.encodeMany gi j n).enc.cpkpost } := by
  obtain ⟨-, -, -, -, -, -, -, -, -, henc, -⟩ := s.encodeMany_frame gi j n
  exact henc

@[simp] theorem State.reduceAndClassify_errlog : s.reduceAndClassify.errlog = s.errlog := by
  obtain ⟨-, -, -, -, herrlog, -⟩ := s.writeRows_frame 0 (reduce s.dec.k.toNat s.accumulated).1
  exact herrlog

@[simp] theorem State.reduceAndClassify_cg : s.reduceAndClassify.cg = s.cg := by
  obtain ⟨-, -, -, -, -, hcg, -⟩ := s.writeRows_frame 0 (reduce s.dec.k.toNat s.accumulated).1
  exact hcg

@[simp] theorem State.reduceAndClassify_enc : s.reduceAndClassify.enc = s.enc := by
  obtain ⟨-, -, -, -, -, -, henc, -⟩ := s.writeRows_frame 0 (reduce s.dec.k.toNat s.accumulated).1
  exact henc

@[simp] theorem State.reduceAndClassify_cfg : s.reduceAndClassify.cfg = s.cfg := by
  obtain ⟨-, -, -, -, -, -, -, -, hcfg, -⟩ := s.writeRows_frame 0 (reduce s.dec.k.toNat s.accumulated).1
  exact hcfg

@[simp] theorem State.reduceAndClassify_sess : s.reduceAndClassify.sess = s.sess := by
  obtain ⟨-, -, -, -, -, -, -, -, -, hsess, -⟩ := s.writeRows_frame 0 (reduce s.dec.k.toNat s.accumulated).1
  exact hsess

@[simp] theorem State.reduceAndClassify_fc : s.reduceAndClassify.fc = s.fc := by
  obtain ⟨-, -, -, -, -, -, -, -, -, -, hfc, -⟩ := s.writeRows_frame 0 (reduce s.dec.k.toNat s.accumulated).1
  exact hfc

theorem State.reduceAndClassify_dec :
    s.reduceAndClassify.dec = s.dec.withResult s.classes (reduce s.dec.k.toNat s.accumulated).2 := rfl

end Composite

/-- `Preprocess` writes no encoder register but ENC_VALID, the captured ones and ENC_GEN (R167). -/
theorem EncRegs.preprocess_frame {x y : EncRegs} {k : Nat} (h : x.preprocess k = some y) :
    y.nfrag = x.nfrag ∧ y.srclen = x.srclen ∧ y.cpkn = x.cpkn ∧ y.cpkg = x.cpkg ∧ y.cpkgen = x.cpkgen ∧
      y.cpkm = x.cpkm ∧ y.cpkpre = x.cpkpre ∧ y.cpkpost = x.cpkpost := by
  rcases x.preprocess_cases k with ⟨-, hnone⟩ | ⟨-, hsome⟩
  · rw [hnone] at h; contradiction
  · rw [hsome] at h
    obtain rfl := Option.some.inj h
    exact ⟨rfl, rfl, rfl, rfl, rfl, rfl, rfl, rfl⟩

/-- The registers that ENCPREP and SSTART set through `Preprocess` are those of their rows. -/
theorem EncoderFrame.preprocess {x y : EncRegs} {k : Nat} {i : Instr} (h : x.preprocess k = some y)
    (hprep : HasOpcode [0x50#8, 0x72#8] i) : EncoderFrame x y i := by
  obtain ⟨hnfrag, hsrclen, hcpkn, hcpkg, hcpkgen, hcpkm, hcpkpre, hcpkpost⟩ := EncRegs.preprocess_frame h
  refine { nfrag := absurd hnfrag, srclen := absurd hsrclen, valid := fun _ => ?_, captured := fun _ => hprep,
           gen := fun _ => ?_, described := by simp [hcpkn, hcpkg, hcpkgen, hcpkm],
           states := by simp [hcpkpre, hcpkpost] }
  · exact List.mem_append_left [0x75#8] hprep
  · exact List.mem_append_left [0x74#8] hprep

/-- The registers that ENCPRE and SFETCH set are those of their rows. -/
theorem EncoderFrame.coded (x : EncRegs) (pre post : List Byte) (count g gi : Nat) {i : Instr}
    (hcode : HasOpcode [0x51#8, 0x73#8] i) :
    EncoderFrame x (EncRegs.describe { x with cpkpre := pre, cpkpost := post } count g gi) i :=
  { nfrag := absurd rfl, srclen := absurd rfl, valid := absurd rfl, captured := by simp [EncRegs.describe],
    gen := absurd rfl, described := fun _ => hcode, states := fun _ => hcode }

/-- CFGSET's selector does not reach CFG_LOADED (R215). -/
theorem CfgRegs.setField_loaded {x y : CfgRegs} {sel v : Byte} (h : x.setField sel v = some y) :
    y.loaded = x.loaded := by
  rcases x.setField_cases sel v with ⟨-, hset⟩ | ⟨-, hset⟩ | ⟨-, hset⟩ | ⟨-, hset⟩ <;>
    rw [hset] at h <;> cases h <;> rfl

/-- Drawing coefficients keeps the seed (R151). -/
theorem GeneratorFrame.drawMany (x : CgRegs) (n : Nat) {i : Instr}
    (hdraw : HasOpcode [0x40#8, 0x41#8, 0x42#8, 0x51#8, 0x72#8, 0x73#8, 0x75#8] i) :
    GeneratorFrame x (x.drawMany n).2 i := by
  rw [CgRegs.drawMany_eq]
  exact ⟨absurd rfl, fun _ => hdraw⟩

theorem MemoryFrame.writeRun {x : Memories} {s : State} {i : Instr} (h : MemoryFrame x s.mem i) {sp : Space} {k : Nat}
    {bs : List Byte} (hi : HasOpcode (Space.writers sp) i) : MemoryFrame x (s.writeRun sp k bs).mem i := by
  intro sp' hne
  by_cases hsp : sp' = sp
  · exact hsp ▸ hi
  · refine h sp' ?_
    rwa [← Memories.get_set_other _ _ hsp]

theorem MemoryFrame.writeByte {x : Memories} {s : State} {i : Instr} (h : MemoryFrame x s.mem i) {sp : Space} {k : Nat}
    {v : Byte} (hi : HasOpcode (Space.writers sp) i) : MemoryFrame x (s.writeByte sp k v).mem i :=
  h.writeRun (bs := [v]) hi

theorem MemoryFrame.encodeOne {x : Memories} {s : State} {i : Instr} (h : MemoryFrame x s.mem i) {gi j : Nat}
    (hi : HasOpcode (Space.writers .cpk) i) : MemoryFrame x (s.encodeOne gi j).mem i := by
  unfold State.encodeOne
  exact h.writeRun hi

theorem MemoryFrame.encodeMany {x : Memories} {s : State} {i : Instr} (h : MemoryFrame x s.mem i) {gi j n : Nat}
    (hi : HasOpcode (Space.writers .cpk) i) : MemoryFrame x (s.encodeMany gi j n).mem i := by
  induction n generalizing s j with
  | zero => exact h
  | succ n ih => exact ih (h.encodeOne hi)

theorem MemoryFrame.writeRows {x : Memories} {s : State} {i : Instr} (h : MemoryFrame x s.mem i) {r : Nat} {m : Matrix}
    (hi : HasOpcode (Space.writers .dres) i) : MemoryFrame x (s.writeRows r m).mem i := by
  induction m generalizing s r with
  | nil => exact h
  | cons row m ih => exact ih (h.writeRun hi)

namespace Effect

variable {s u : State} {i : Instr} (heff : Effect s i u)
include heff

theorem errlog : u.errlog = s.errlog := by
  cases heff with
  | encpre => exact s.encodeMany_errlog ..
  | sfetch => rw [State.setSess_errlog, State.setEnc_errlog, State.encodeOne_errlog]
  | rxDeliver => rw [State.deliver_state, State.setFc_errlog, State.writeRun_errlog]; rfl
  | decrun | decgen => exact s.reduceAndClassify_errlog
  | _ => rfl

theorem generator : GeneratorFrame s.cg u.cg i := by
  cases heff with
  | lfseed | sstart => constructor <;> simp [HasOpcode, Instr.row]
  | lfreset | sstop => exact ⟨absurd rfl, fun _ => by simp [HasOpcode, Instr.row]⟩
  | lfgen x hx =>
    rcases s.cg.generate_cases with ⟨-, hnone⟩ | ⟨-, hsome⟩
    · rw [hnone] at hx; contradiction
    · obtain rfl := Option.some.inj (hsome.symm.trans hx)
      exact ⟨absurd rfl, fun _ => by simp [HasOpcode, Instr.row]⟩
  | encpre =>
    rw [State.setEnc_cg, State.encodeMany_cg]
    exact .drawMany _ _ (by simp [HasOpcode, Instr.row])
  | sfetch =>
    rw [State.setSess_cg, State.setEnc_cg, State.encodeOne_cg]
    exact .drawMany _ _ (by simp [HasOpcode, Instr.row])
  | decrun | decgen => rw [State.setDec_cg, State.reduceAndClassify_cg]; exact .refl ..
  | rxDeliver => rw [State.deliver_state, State.setFc_cg, State.writeRun_cg]; exact .refl ..
  | _ => exact .refl ..

theorem encoder : EncoderFrame s.enc u.enc i := by
  cases heff with
  | frcnt | frlen | sadv | sstop => constructor <;> simp [HasOpcode, Instr.row, EncRegs.advancePointer]
  | encprep a x hx => exact .preprocess hx (by simp [HasOpcode, Instr.row])
  | sstart x _ hx => exact .preprocess hx (by simp [HasOpcode, Instr.row])
  | encpre a b count =>
    rw [State.setEnc_enc, State.encodeMany_enc]
    exact .coded _ _ _ _ _ _ (by simp [HasOpcode, Instr.row])
  | sfetch =>
    rw [State.setSess_enc, State.setEnc_enc, State.encodeOne_enc]
    exact .coded _ _ _ _ _ _ (by simp [HasOpcode, Instr.row])
  | decrun | decgen => rw [State.setDec_enc, State.reduceAndClassify_enc]; exact .refl ..
  | rxDeliver => rw [State.deliver_state, State.setFc_enc, State.writeRun_enc]; exact .refl ..
  | _ => exact .refl ..

theorem decoder : DecoderFrame s.dec u.dec i := by
  cases heff with
  | dpcnt | deccfg => constructor <;> simp [HasOpcode, Instr.row]
  | decrun | decgen =>
    rw [State.setDec_dec, State.reduceAndClassify_dec]
    constructor <;> simp [HasOpcode, Instr.row, DecRegs.withSelection, DecRegs.withResult]
  | encpre => rw [State.setEnc_dec, State.encodeMany_dec]; exact .refl ..
  | sfetch => rw [State.setSess_dec, State.setEnc_dec, State.encodeOne_dec]; exact .refl ..
  | rxDeliver => rw [State.deliver_state, State.setFc_dec, State.writeRun_dec]; exact .refl ..
  | _ => exact .refl ..

theorem config : ConfigFrame s.cfg u.cfg i := by
  cases heff with
  | cfgload => constructor <;> simp [HasOpcode, Instr.row]
  | cfgset a b x hx =>
    exact ⟨fun _ => by simp [HasOpcode, Instr.row], absurd (CfgRegs.setField_loaded hx)⟩
  | encpre => rw [State.setEnc_cfg, State.encodeMany_cfg]; exact .refl ..
  | sfetch => rw [State.setSess_cfg, State.setEnc_cfg, State.encodeOne_cfg]; exact .refl ..
  | decrun | decgen => rw [State.setDec_cfg, State.reduceAndClassify_cfg]; exact .refl ..
  | rxDeliver => rw [State.deliver_state, State.setFc_cfg, State.writeRun_cfg]; exact .refl ..
  | _ => exact .refl ..

theorem session : SessionFrame s.sess u.sess i := by
  cases heff with
  | sstart | sfetch | sadv | sstop => constructor <;> simp [HasOpcode, Instr.row, SessRegs.afterFetch]
  | encpre => rw [State.setEnc_sess, State.encodeMany_sess]; exact .refl ..
  | decrun | decgen => rw [State.setDec_sess, State.reduceAndClassify_sess]; exact .refl ..
  | rxDeliver => rw [State.deliver_state, State.setFc_sess, State.writeRun_sess]; exact .refl ..
  | _ => exact .refl ..

theorem codec : CodecFrame s.fc u.fc i := by
  cases heff with
  | cobsenc | cobsdec | cobsdecFails | frbuild =>
    constructor <;> simp [HasOpcode, Instr.row, State.putFout_eq]
  | rxStart | rxOverflow | rxCollect | rxDrop | rxDeliver =>
    exact ⟨absurd rfl, fun _ => by simp [HasOpcode, Instr.row]⟩
  | encpre => rw [State.setEnc_fc, State.encodeMany_fc]; exact .refl ..
  | sfetch => rw [State.setSess_fc, State.setEnc_fc, State.encodeOne_fc]; exact .refl ..
  | decrun | decgen => rw [State.setDec_fc, State.reduceAndClassify_fc]; exact .refl ..
  | _ => exact .refl ..

theorem memory : MemoryFrame s.mem u.mem i := by
  have hrefl := MemoryFrame.refl i s.mem
  cases heff with
  | frwr | dpwr | fiwr | rxStart => exact hrefl.writeByte (by simp [HasOpcode, Space.writers, Instr.row])
  | rxCollect | rxDrop => exact hrefl.writeByte (by simp [HasOpcode, Space.writers, Instr.row])
  | cobsenc | cobsdec | frbuild => exact hrefl.writeRun (by simp [HasOpcode, Space.writers, Instr.row])
  | encpre => exact hrefl.encodeMany (by simp [HasOpcode, Space.writers, Instr.row])
  | sfetch =>
    rw [State.setSess_mem, State.setEnc_mem]
    exact hrefl.encodeOne (by simp [HasOpcode, Space.writers, Instr.row])
  | decrun | decgen => exact hrefl.writeRows (by simp [HasOpcode, Space.writers, Instr.row])
  | rxDeliver a payload =>
    have hbuf : MemoryFrame s.mem (s.collected a).mem (.rxbyte a) :=
      hrefl.writeByte (by simp [HasOpcode, Space.writers, Instr.row])
    exact hbuf.writeRun (by simp [HasOpcode, Space.writers, Instr.row])
  | _ => exact hrefl

end Effect

section Settle

variable (r : Reply)

@[simp] theorem Reply.settle_cg : r.settle.cg = r.state.cg := by cases r <;> rfl
@[simp] theorem Reply.settle_enc : r.settle.enc = r.state.enc := by cases r <;> rfl
@[simp] theorem Reply.settle_dec : r.settle.dec = r.state.dec := by cases r <;> rfl
@[simp] theorem Reply.settle_cfg : r.settle.cfg = r.state.cfg := by cases r <;> rfl
@[simp] theorem Reply.settle_sess : r.settle.sess = r.state.sess := by cases r <;> rfl
@[simp] theorem Reply.settle_fc : r.settle.fc = r.state.fc := by cases r <;> rfl
@[simp] theorem Reply.settle_mem : r.settle.mem = r.state.mem := by cases r <;> rfl

/-- Ending a command changes ERRLOG only with a status other than OK (R270). -/
theorem Reply.status_ne_of_errlog_ne (h : r.settle.errlog ≠ r.state.errlog) :
    ∃ rw, r.settle.response = some rw ∧ responseStatus rw ≠ 0 := by
  cases r with
  | value s v => exact absurd rfl h
  | raise s e => exact ⟨_, s.takeError_response e, by cases e <;> decide +kernel⟩

end Settle

/-- Settles O57: ending a command writes the response and ERRLOG, and every effect keeps to the rows. -/
theorem onlyTheNamedCommandsWrite : Obligations.OnlyTheNamedCommandsWrite := by
  intro i s t ht
  obtain ⟨r, hr, heff⟩ := exec_effect i s
  obtain rfl : r.settle = t := Host.Outcome.next.inj (hr.symm.trans ht)
  obtain ⟨hseed, hstream⟩ := r.settle_cg ▸ heff.generator
  obtain ⟨hnfrag, hsrclen, hvalid, hcaptured, hgen, hdescribed, hstates⟩ := r.settle_enc ▸ heff.encoder
  obtain ⟨hshape, hrows, hresult, hclasses, hsel⟩ := r.settle_dec ▸ heff.decoder
  obtain ⟨hfields, hloaded⟩ := r.settle_cfg ▸ heff.config
  obtain ⟨hfixed, hcurGen, hcurFrag, hmetadata⟩ := r.settle_sess ▸ heff.session
  obtain ⟨hfoutn, hreceive⟩ := r.settle_fc ▸ heff.codec
  have hmem : MemoryFrame s.mem r.settle.mem i := r.settle_mem ▸ heff.memory
  exact ⟨fun h => r.status_ne_of_errlog_ne (heff.errlog ▸ h), hseed, hstream, hnfrag, hsrclen, hvalid, hcaptured, hgen,
    hdescribed, hstates, hshape, hrows, hresult, hclasses, hsel, hfields, hloaded, hfixed, hcurGen, hcurFrag, hmetadata,
    hfoutn, hreceive, hmem .src, hmem .cpk, hmem .dpkt, hmem .dres, hmem .fin, hmem .fout,
    fun h => h.elim (hmem .rxbuf) (hmem .rxpay)⟩

end Sys2Proof.Machine
end

section
/-! PROOFS. The constant tables of R24, R25 and R26: the two field tables are inverse to each other and follow the
building loop, and the CRC table is the bitwise CRC that CRC8 answers. -/

open Sys2Proof Sys2Proof.Certificates

namespace Sys2Proof.Machine

/-! ### ALOG and LOG -/

/-- One round of the building loop: the product with `x`, reduced by 0x11D (R24). -/
theorem alog_succ : ∀ i < 255, alog ((i + 1) % 255) =
    ⟨if (alog i).byte.msb then ((alog i).byte <<< 1) ^^^ 0x1D#8 else (alog i).byte <<< 1⟩ := by
  decide +kernel

/-- What the loop writes into LOG (R25). -/
theorem gfLog_alog : ∀ i < 255, gfLog (alog i) = i := by decide +kernel

/-- Settles O23: 1 is recorded first, then every round of the loop, in both tables. -/
theorem antilogTableIsTheBuildingLoop : Obligations.AntilogTableIsTheBuildingLoop :=
  ⟨rfl, alog_succ, gfLog_alog⟩

/-- An entry of the printed table LOG is an exponent, the one at which ALOG has the entry's index. -/
theorem logRows_spec : ∀ b : Byte, b ≠ 0#8 →
    (romByte logRows b.toNat).toNat < 255 ∧ alog (romByte logRows b.toNat).toNat = ⟨b⟩ := by decide +kernel

/-- Every element but zero is a power of x below 255, and LOG finds it (R25). -/
theorem gfLog_spec {x : GF} (hx : x ≠ GF.zero) : gfLog x < 255 ∧ alog (gfLog x) = x := by
  rw [gfLog, if_neg hx]
  exact logRows_spec x.byte fun h => hx (congrArg GF.mk h)

/-! ### CRCT -/

/-- The table is eight bitwise steps with polynomial 0xD5 (R26). -/
theorem crcTable_eq : ∀ v : Byte, crcTable v = crcBit^[8] v := by decide +kernel

theorem crc8_eq_crcBitwise (d : List Byte) : crc8 d = crcBitwise d := by
  unfold crc8 crcBitwise
  simp only [crcTable_eq]

/-! ### CRC8 -/

/-- A command's encoding, where a word with its opcode is read as the command `mk` of the word's fields (R81, R82,
R85). -/
theorem hasWord_of_readAs {i : Instr} {op a b c : Byte} (mk : Byte → Byte → Byte → Instr)
    (hread : ∀ cw, fieldOp cw = op → decode cw = readAs i.row.format cw (mk (fieldA cw) (fieldB cw) (fieldC cw)))
    (hencode : encode i = op ++ a ++ b ++ c) (hadmits : i.row.format.admits (a, b, c) = true) (hmk : mk a b c = i) :
    HasWord i op a b c := by
  refine ⟨hencode, ?_, fun cw hop hreserved => ?_⟩
  · rw [hread _ (fieldOp_append ..), fieldA_append, fieldB_append, fieldC_append, hmk, readAs, fieldA_append,
      fieldB_append, fieldC_append, if_pos hadmits]
  · rw [hread cw hop, readAs, hreserved, hop]
    rfl

/-- A success in the words of the statements (R83). -/
theorem State.answer_eq_okAfter (s : State) (v : Nat) : s.answer v = okAfter s v := rfl

theorem State.finBytes_eq (s : State) (n : Nat) : s.finBytes n = bytesOf s .fin n := by
  simp only [State.finBytes, State.readRun, bytesOf, Nat.zero_add]

/-- Settles O49: the fold over FIN by the table is the fold by bitwise steps. -/
theorem crc8AnswersTheBitwiseCrc : Obligations.Crc8AnswersTheBitwiseCrc := by
  intro a s
  have hword : HasWord (.crc8 a) 0x80#8 a 0#8 0#8 :=
    hasWord_of_readAs (fun x _ _ => .crc8 x) (fun cw hop => by rw [decode, hop]; rfl) rfl rfl rfl
  refine ⟨hword, crcTable_eq a, ?_⟩
  calc exec (.crc8 a) s = .next (s.answer (crc8 (s.finBytes a.toNat)).toNat) := rfl
    _ = .next (okAfter s (crcBitwise (bytesOf s .fin a.toNat)).toNat) := by
      rw [crc8_eq_crcBitwise, s.finBytes_eq, State.answer_eq_okAfter]

end Sys2Proof.Machine
end

section
/-! PROOFS. The reduction of R187 column by column: what it leaves in each entry, that the columns done so far are in
reduced echelon form (R188), and that DRES and DRANK are the reduction's matrix and number of pivots. -/

open Sys2Proof Sys2Proof.Certificates

namespace Sys2Proof.Machine

/-! ### Field facts -/

section Field

variable (x : GF)

theorem gfMul_zero : gfMul x GF.zero = GF.zero := if_pos (.inr rfl)

theorem gfSub_zero : gfSub x GF.zero = x := congrArg GF.mk (BitVec.xor_zero ..)

theorem gfSub_self : gfSub x x = GF.zero := congrArg GF.mk (BitVec.xor_self ..)

theorem gfQuot_zero_left : gfQuot GF.zero x = GF.zero := if_pos rfl

theorem gfLog_one : gfLog GF.one = 0 := gfLog_alog 0 (by decide)

theorem gfMul_one : gfMul x GF.one = x := by
  by_cases hx : x = GF.zero
  · rw [hx]; exact if_pos (.inl rfl)
  · obtain ⟨hlt, hinv⟩ := gfLog_spec hx
    rw [gfMul, if_neg (by simp [hx]), gfLog_one, Nat.add_zero, Nat.mod_eq_of_lt hlt, hinv]

theorem gfQuot_self {x : GF} (hx : x ≠ GF.zero) : gfQuot x x = GF.one := by
  rw [gfQuot, if_neg hx, Nat.add_sub_cancel]
  rfl

end Field

/-! ### Entries of rows and matrices -/

/-- Entry `j` of row `i` of a matrix. -/
def entryAt (m : Matrix) (i j : Nat) : GF := entry (m.getD i []) j

theorem entry_normalize (row : Row) (c j : Nat) :
    entry (normalize row c) j = if j < c then entry row j else gfQuot (entry row j) (entry row c) := by
  simp only [entry, normalize, List.getD_eq_getElem?_getD, List.getElem?_mapIdx]
  cases row[j]? with
  | none => simp [gfQuot_zero_left]
  | some x => simp

theorem entry_eliminate {row p : Row} (hlen : row.length = p.length) (c j : Nat) :
    entry (eliminate row p c) j = gfSub (entry row j) (gfMul (entry row c) (entry p j)) := by
  by_cases hj : j < row.length
  · simp [entry, eliminate, hj, hlen ▸ hj]
  · have hp : p.length ≤ j := hlen ▸ not_lt.1 hj
    simp [entry, eliminate, not_lt.1 hj, hp, gfMul_zero, gfSub_zero]

theorem getD_exchange (m : Matrix) (r piv : Nat) (p : Row) {i : Nat} (hi : i < m.length) :
    (exchange m r piv p).getD i [] = if i = piv then p else m.getD (if i = r then piv else i) [] := by
  simp only [exchange, List.getD_eq_getElem?_getD, List.getElem?_set, List.length_set]
  by_cases hp : piv = i
  · simp [hp, hi]
  · by_cases hr : r = i
    · simp [hp, hr, hi, Ne.symm hp]
    · simp [hp, hr, Ne.symm hp, Ne.symm hr]

/-- The work on a column with a pivot, entry by entry: the pivot row goes to its slot, and every other row, after the
exchange, loses its multiple of the pivot row (R187, steps 2 to 4). -/
theorem entryAt_reduceColumn {c w r : Nat} {mp : Matrix × Nat} (hw : ∀ row ∈ mp.1, row.length = w)
    (hpiv : findPivot mp.1 mp.2 c = some r) {i : Nat} (hi : i < mp.1.length) (j : Nat) :
    entryAt (reduceColumn c mp).1 i j =
      if i = mp.2 then entry (normalize (mp.1.getD r []) c) j
      else gfSub (entryAt mp.1 (if i = r then mp.2 else i) j)
        (gfMul (entryAt mp.1 (if i = r then mp.2 else i) c) (entry (normalize (mp.1.getD r []) c) j)) := by
  obtain ⟨hle, hr, -⟩ := findPivot_some hpiv
  have hwidth : ∀ n < mp.1.length, (mp.1.getD n []).length = w := fun n hn => by
    rw [List.getD_eq_getElem _ _ hn]; exact hw _ (List.getElem_mem hn)
  have hslot : (if i = r then mp.2 else i) < mp.1.length := by split <;> omega
  have hrow := getD_exchange mp.1 r mp.2 (normalize (mp.1.getD r []) c) hi
  rw [List.getD_eq_getElem _ _ (by simpa using hi)] at hrow
  simp only [reduceColumn, hpiv, entryAt]
  rw [List.getD_eq_getElem _ _ (by simpa using hi), List.getElem_mapIdx, hrow]
  split
  · rfl
  · exact entry_eliminate (by rw [hwidth _ hslot, normalize_length, hwidth r hr]) c j

theorem findPivot_none {m : Matrix} {piv c : Nat} (h : findPivot m piv c = none) {i : Nat} (hi : i < m.length)
    (hp : piv ≤ i) : entryAt m i c = GF.zero := by
  have := List.find?_eq_none.1 h i (List.mem_range.2 hi)
  simpa [hp, entryAt] using this

/-! ### Reduced echelon form -/

/-- The first `c` columns of a matrix are in reduced echelon form, with the pivot columns `col` (R188 (d), (e)). -/
structure Echelon (c : Nat) (m : Matrix) (col : List Nat) : Prop where
  sorted : col.Pairwise (· < ·)
  lt : ∀ x ∈ col, x < c
  rows : col.length ≤ m.length
  unit : ∀ i (h : i < col.length), ∀ r < m.length, entryAt m r col[i] = if r = i then GF.one else GF.zero
  leading : ∀ i (h : i < col.length), ∀ j < col[i], entryAt m i j = GF.zero
  below : ∀ r < m.length, col.length ≤ r → ∀ j < c, entryAt m r j = GF.zero

theorem Echelon.start (m : Matrix) : Echelon 0 m [] where
  sorted := .nil
  lt := nofun
  rows := Nat.zero_le _
  unit := nofun
  leading := nofun
  below := nofun

section Column

variable {c : Nat} {m m' : Matrix} {col : List Nat}

/-- A column without a pivot is zero below the pivots found so far. -/
theorem Echelon.skip (h : Echelon c m col) (hzero : ∀ r < m.length, col.length ≤ r → entryAt m r c = GF.zero) :
    Echelon (c + 1) m col where
  sorted := h.sorted
  lt := fun x hx => (h.lt x hx).trans (Nat.lt_succ_self c)
  rows := h.rows
  unit := h.unit
  leading := h.leading
  below := fun r hr hpiv j hj => by
    rcases Nat.lt_succ_iff_lt_or_eq.1 hj with hj | rfl
    · exact h.below r hr hpiv j hj
    · exact hzero r hr hpiv

/-- A column that has become the next unit vector, the columns before it kept, is the next pivot column. -/
theorem Echelon.snoc (h : Echelon c m col) (hlen : m'.length = m.length) (hroom : col.length < m.length)
    (hkeep : ∀ i < m.length, ∀ j < c, entryAt m' i j = entryAt m i j)
    (hunit : ∀ i < m.length, entryAt m' i c = if i = col.length then GF.one else GF.zero) :
    Echelon (c + 1) m' (col ++ [c]) := by
  refine { sorted := ?_, lt := fun x hx => ?_, rows := by simpa [hlen] using hroom, unit := fun i hi r hr => ?_,
           leading := fun i hi j hj => ?_, below := fun r hr hpiv j hj => ?_ }
  · exact List.pairwise_append.2 ⟨h.sorted, List.pairwise_singleton .., by simpa using h.lt⟩
  · rcases List.mem_append.1 hx with hx | hx
    · exact (h.lt x hx).trans (Nat.lt_succ_self c)
    · rw [List.mem_singleton.1 hx]; exact Nat.lt_succ_self c
  · rw [hlen] at hr
    rcases Nat.lt_or_ge i col.length with hold | hnew
    · rw [List.getElem_append_left hold, hkeep r hr _ (h.lt _ (List.getElem_mem hold)), h.unit i hold r hr]
    · obtain rfl : i = col.length := by simp at hi; omega
      simpa using hunit r hr
  · rcases Nat.lt_or_ge i col.length with hold | hnew
    · rw [List.getElem_append_left hold] at hj
      rw [hkeep i (hold.trans hroom) j (hj.trans (h.lt _ (List.getElem_mem hold))), h.leading i hold j hj]
    · obtain rfl : i = col.length := by simp at hi; omega
      have hj : j < c := by simpa using hj
      rw [hkeep _ hroom j hj, h.below _ hroom le_rfl j hj]
  · rw [hlen] at hr
    simp only [List.length_append, List.length_singleton] at hpiv
    rcases Nat.lt_succ_iff_lt_or_eq.1 hj with hj | rfl
    · rw [hkeep r hr j hj, h.below r hr (by omega) j hj]
    · rw [hunit r hr, if_neg (by omega)]

end Column

/-- The pivot row is zero before the pivot column, and 1 in it. -/
theorem Echelon.pivotRow {c r : Nat} {m : Matrix} {col : List Nat} (h : Echelon c m col)
    (hpiv : findPivot m col.length c = some r) :
    (∀ j < c, entry (normalize (m.getD r []) c) j = GF.zero) ∧ entry (normalize (m.getD r []) c) c = GF.one := by
  obtain ⟨hle, hr, hne⟩ := findPivot_some hpiv
  refine ⟨fun j hj => ?_, ?_⟩
  · rw [entry_normalize, if_pos hj]; exact h.below r hr hle j hj
  · rw [entry_normalize, if_neg (lt_irrefl c), gfQuot_self hne]

/-- The work on a column extends the form by that column (R187, R188). -/
theorem Echelon.reduceColumn {c w : Nat} {mp : Matrix × Nat} {col : List Nat} (hw : ∀ row ∈ mp.1, row.length = w)
    (h : Echelon c mp.1 col) (hcol : col.length = mp.2) :
    ∃ col', Echelon (c + 1) (reduceColumn c mp).1 col' ∧ col'.length = (reduceColumn c mp).2 := by
  cases hpiv : findPivot mp.1 mp.2 c with
  | none =>
    have hsame : Machine.reduceColumn c mp = mp := by simp only [Machine.reduceColumn, hpiv]
    rw [hsame]
    exact ⟨col, h.skip fun r hr hle => findPivot_none hpiv hr (hcol ▸ hle), hcol⟩
  | some r =>
    obtain ⟨hle, hr, -⟩ := findPivot_some hpiv
    obtain ⟨hzero, hone⟩ := h.pivotRow (hcol ▸ hpiv)
    have hentry := fun i (hi : i < mp.1.length) j => entryAt_reduceColumn hw hpiv hi j
    have hlen : (Machine.reduceColumn c mp).1.length = mp.1.length := by simp [Machine.reduceColumn, hpiv]
    have hnext : (Machine.reduceColumn c mp).2 = mp.2 + 1 := by simp only [Machine.reduceColumn, hpiv]
    have hbelow : ∀ i < mp.1.length, mp.2 ≤ i → ∀ j < c, entryAt mp.1 i j = GF.zero := hcol ▸ h.below
    refine ⟨col ++ [c], h.snoc hlen (by omega) (fun i hi j hj => ?_) (fun i hi => ?_), by simp [hnext, hcol]⟩
    · rw [hentry i hi, hzero j hj, gfMul_zero, gfSub_zero]
      split
      · next hslot => rw [hslot, hbelow mp.2 (by omega) le_rfl j hj]
      · split
        · next hr' => rw [hr', hbelow mp.2 (by omega) le_rfl j hj, hbelow r hr hle j hj]
        · rfl
    · rw [hentry i hi, hone, gfMul_one, gfSub_self, hcol]

theorem reduce_succ (k : Nat) (m : Matrix) : reduce (k + 1) m = reduceColumn k (reduce k m) := by
  simp only [reduce, List.range_succ, List.foldl_append, List.foldl_cons, List.foldl_nil]

/-- The reduction over `k` columns puts them into reduced echelon form, one pivot column for each pivot (R188). -/
theorem reduce_echelon {w : Nat} {m : Matrix} (hw : ∀ row ∈ m, row.length = w) (k : Nat) :
    ∃ col, Echelon k (reduce k m).1 col ∧ col.length = (reduce k m).2 := by
  induction k with
  | zero => exact ⟨[], .start m, rfl⟩
  | succ k ih =>
    obtain ⟨col, h, hcol⟩ := ih
    obtain ⟨-, hwidth, -⟩ := reduce_shape k w m hw
    rw [reduce_succ]
    exact h.reduceColumn hwidth hcol

/-! ### The result of DECRUN -/

theorem execDecrun_next {s t : State} (hk : s.dec.k ≠ 0#5) (ht : exec .decrun s = .next t) :
    ∃ v, t = (s.reduceAndClassify.setDec (s.reduceAndClassify.dec.withSelection [])).answer v := by
  have hexec : exec .decrun s =
      .next ((s.reduceAndClassify.setDec (s.reduceAndClassify.dec.withSelection [])).answer
        s.reduceAndClassify.dec.nsucc.toNat) := by
    simp only [exec, execDecrun, if_neg hk, Reply.complete_eq, Reply.settle_value]
  exact ⟨_, Host.Outcome.next.inj (ht.symm.trans hexec)⟩

/-- The rows of DRES are the reduced matrix, and DRANK is its number of pivots (R187, R190). -/
structure HoldsResult (s t : State) : Prop where
  k : t.dec.k = s.dec.k
  resRows : t.dec.resRows = s.dec.rows
  rank : t.dec.rank.toNat = (reduce s.dec.k.toNat s.accumulated).2
  bytes : ∀ r < s.dec.rows.toNat, ∀ j < s.dec.width,
    cell t .dres r j = (entryAt (reduce s.dec.k.toNat s.accumulated).1 r j).byte

theorem execDecrun_holdsResult {s t : State} (h : s.Inv) (hk : s.dec.k ≠ 0#5) (ht : exec .decrun s = .next t) :
    HoldsResult s t := by
  obtain ⟨v, rfl⟩ := execDecrun_next hk ht
  obtain ⟨hrows, hwidth⟩ := s.accumulated_shape
  obtain ⟨hlen, hwidth', hrank, -⟩ := reduce_shape s.dec.k.toNat s.dec.width s.accumulated hwidth
  have h256 : s.dec.width < 256 := h.decoder.width_le.trans_lt (Params.wMax_lt h.params)
  have hk16 := h.decoder.k
  refine { k := rfl, resRows := ?_, rank := ?_, bytes := fun r hr j hj => ?_ }
  · calc _ = BitVec.ofNat 8 s.classes.length := rfl
      _ = s.dec.rows := by rw [s.classes_length, BitVec.ofNat_toNat, BitVec.setWidth_eq]
  · calc _ = (BitVec.ofNat 5 (reduce s.dec.k.toNat s.accumulated).2).toNat := rfl
      _ = (reduce s.dec.k.toNat s.accumulated).2 := by rw [BitVec.toNat_ofNat, Nat.mod_eq_of_lt (by omega)]
  · rw [cell, State.readByte_answer, State.readByte_setDec, State.reduceAndClassify, State.readByte_setDec,
      State.readByte_writeRows _ _ _ _ _ _ hwidth' h256.le (hj.trans h256), if_pos ⟨Nat.zero_le _, by omega, hj⟩]
    rfl

/-- Settles O39: DRES holds a matrix that the reduction has put into reduced echelon form. -/
theorem reductionIsReducedEchelon : Obligations.ReductionIsReducedEchelon := by
  intro s t h hk ht
  obtain ⟨htk, hresRows, hrank, hbytes⟩ := execDecrun_holdsResult h hk ht
  obtain ⟨hrows, hwidth⟩ := s.accumulated_shape
  obtain ⟨hlen, -⟩ := reduce_shape s.dec.k.toNat s.dec.width s.accumulated hwidth
  obtain ⟨col, hech, hcol⟩ := reduce_echelon hwidth s.dec.k.toNat
  have hin : ∀ {j}, j < s.dec.k.toNat → j < s.dec.width := fun hj => hj.trans_le (Nat.le_add_right ..)
  have hcolk : ∀ i (hi : i < col.length), col[i] < s.dec.k.toNat := fun i hi => hech.lt _ (List.getElem_mem hi)
  have hsize : (reduce s.dec.k.toNat s.accumulated).1.length = s.dec.rows.toNat := hlen.trans hrows
  have hfit := hech.rows
  refine ⟨col, hcol.trans hrank.symm, hech.sorted, fun c hc => ?_, fun i hi r hr => ?_, fun i hi j hj => ?_,
    fun r hr hpiv j hj => ?_⟩
  · rw [htk]; exact hech.lt c hc
  · rw [hresRows] at hr
    rw [hbytes r hr _ (hin (hcolk i hi)), hech.unit i hi r (by omega)]
    split <;> rfl
  · rw [hbytes i (by omega) j (hin (hj.trans (hcolk i hi))), hech.leading i hi j hj]
  · rw [hresRows] at hr
    rw [htk] at hj
    rw [hbytes r hr j (hin hj), hech.below r (by omega) (by omega) j hj]

end Sys2Proof.Machine
end

section
/-! PROOFS. The writable memories of R60 and R63: what a guarded write leaves is what the matching guarded read answers,
and the same write again leaves it. -/

open Sys2Proof Sys2Proof.Certificates

namespace Sys2Proof.Machine

/-! ### One write, repeated -/

theorem Memories.set_set_same (m : Memories) (sp : Space) (x y : Memory) : (m.set sp x).set sp y = m.set sp y := by
  cases sp <;> rfl

section Write

variable (s : State) (sp : Space) (k : Nat) (v : Byte)

theorem State.readByte_writeByte_same : (s.writeByte sp k v).readByte sp k = v := by
  rw [State.readByte_writeByte, if_pos ⟨rfl, rfl⟩]

/-- The second write finds its own byte in place, so even the listing stays (log 5). -/
theorem State.writeByte_writeByte_same : (s.writeByte sp k v).writeByte sp k v = s.writeByte sp k v := by
  have hstore : Memory.store ((s.writeByte sp k v).mem.get sp) k v = Memory.store (s.mem.get sp) k v := by
    rw [State.writeByte, State.setMem_mem, Memories.get_set_same, Memory.store_store_same]
  calc (s.writeByte sp k v).writeByte sp k v
      = s.setMem ((s.mem.set sp _).set sp (Memory.store ((s.writeByte sp k v).mem.get sp) k v)) := rfl
    _ = s.writeByte sp k v := by rw [hstore, Memories.set_set_same, State.writeByte]

theorem State.answer_writeByte (w : Nat) : (s.answer w).writeByte sp k v = (s.writeByte sp k v).answer w := rfl

theorem State.answer_answer (w w' : Nat) : (s.answer w).answer w' = s.answer w' := rfl

end Write

/-! ### The guard of R100 -/

theorem responseStatus_okWord (w : Nat) : responseStatus (okWord w) = 0 := by
  rw [responseStatus, okWord, BitVec.extractLsb'_append_eq_of_le (by decide)]
  rfl

/-- The status tells an error from a success (R83, R270). -/
theorem State.takeError_response_ne_okWord (s : State) (e : ErrorKind) (w : Nat) :
    (s.takeError e).response ≠ some (okWord w) := by
  intro h
  have hstatus : responseStatus (responseWord e.code 0) = 0 := by
    rw [Option.some.inj h, responseStatus_okWord]
  cases e <;> exact absurd hstatus (by decide +kernel)

section Guard

variable {s t u : State} {v : Nat}

theorem State.guarded_true : s.guarded true (.value u v) = .next (u.answer v) := rfl

theorem State.guarded_false {access : Reply} : s.guarded false access = .next (s.takeError .validationError) := rfl

/-- A guarded command that answers OK was in range and made its access (R100). -/
theorem State.guarded_ok {inRange : Bool} {w : Nat} (ht : s.guarded inRange (.value u v) = .next t)
    (hok : t.response = some (okWord w)) : inRange = true ∧ t = u.answer v := by
  cases inRange with
  | true => exact ⟨rfl, (Host.Outcome.next.inj ht).symm⟩
  | false =>
    rw [State.guarded_false] at ht
    obtain rfl := Host.Outcome.next.inj ht
    exact absurd hok (s.takeError_response_ne_okWord _ w)

end Guard

/-- After a write of `v` behind a test that the write does not disturb, the read behind that test answers `v` and the same
write leaves the whole state as it is (R60, R63, R100). -/
theorem State.guarded_writeByte_ok {s t : State} {sp : Space} {k : Nat} {v : Byte} (test : State → Bool)
    (hkeep : test ((s.writeByte sp k v).answer 0) = test s)
    (ht : s.guarded (test s) (.value (s.writeByte sp k v) 0) = .next t) (hok : t.response = some (okWord 0)) :
    t.guarded (test t) (.value t (t.readByte sp k).toNat) = .next (okAfter t v.toNat) ∧
      t.guarded (test t) (.value (t.writeByte sp k v) 0) = .next t := by
  obtain ⟨hrange, rfl⟩ := State.guarded_ok ht hok
  rw [hkeep, hrange, State.guarded_true, State.guarded_true]
  constructor
  · rw [State.readByte_answer, State.readByte_writeByte_same, State.answer_eq_okAfter]
  · rw [State.answer_writeByte, State.writeByte_writeByte_same, State.answer_answer]

/-- Settles O21: the read and the write of one memory stand behind one test, of capacities and registers that the write
keeps (R105 and R106, R110 and R113, R116 and R117). -/
theorem readAfterWriteAnswersTheByte : Obligations.ReadAfterWriteAnswersTheByte := by
  intro a b c s t u
  refine ⟨fun ht hok => ?frwr, fun ht hok => ?dpwr, fun hu hok => ?fiwr⟩
  case frwr =>
    exact State.guarded_writeByte_ok (fun x => a.toNat < x.params.fMax && b.toNat < x.params.mMax) rfl ht hok
  case dpwr =>
    exact State.guarded_writeByte_ok
      (fun x => a.toNat < x.params.pMax && b.toNat < x.dec.k.toNat + x.dec.m.toNat) rfl ht hok
  case fiwr => exact State.guarded_writeByte_ok (fun _ => a.toNat < Config.finSize) rfl hu hok

end Sys2Proof.Machine
end

section
/-! PROOFS. A command word is its four fields (30_encoding.md R81), and so decoding and encoding are inverse on the legal
words, which are the words that match a row of the opcode map (R82, R84, R85). -/

open Sys2Proof Sys2Proof.Certificates

namespace Sys2Proof

/-! ### A word is its four fields -/

section Word

variable (cw mask : CommandWord)

/-- The four fields cover the word (R81). -/
theorem append_fields : fieldOp cw ++ fieldA cw ++ fieldB cw ++ fieldC cw = cw := by
  unfold fieldOp fieldA fieldB fieldC
  rw [BitVec.extractLsb'_append_extractLsb'_eq_extractLsb' (start₂ := 24) (start₁ := 16) rfl,
    BitVec.extractLsb'_append_extractLsb'_eq_extractLsb' (start₂ := 16) (start₁ := 8) rfl,
    BitVec.extractLsb'_append_extractLsb'_eq_extractLsb' (start₂ := 8) (start₁ := 0) rfl]
  exact BitVec.extractLsb'_eq_self

theorem fieldOp_and : fieldOp (cw &&& mask) = fieldOp cw &&& fieldOp mask := BitVec.extractLsb'_and

theorem fieldA_and : fieldA (cw &&& mask) = fieldA cw &&& fieldA mask := BitVec.extractLsb'_and

theorem fieldB_and : fieldB (cw &&& mask) = fieldB cw &&& fieldB mask := BitVec.extractLsb'_and

theorem fieldC_and : fieldC (cw &&& mask) = fieldC cw &&& fieldC mask := BitVec.extractLsb'_and

end Word

/-- A word is given by its fields (R81). -/
theorem eq_append_iff {cw : CommandWord} {op a b c : Byte} :
    cw = op ++ a ++ b ++ c ↔ fieldOp cw = op ∧ fieldA cw = a ∧ fieldB cw = b ∧ fieldC cw = c := by
  constructor
  · rintro rfl
    exact ⟨fieldOp_append .., fieldA_append .., fieldB_append .., fieldC_append ..⟩
  · rintro ⟨rfl, rfl, rfl, rfl⟩
    exact (append_fields cw).symm

/-! ### Matching a row -/

theorem OpRow.pattern_eq (r : OpRow) : r.pattern = r.op ++ 0#8 ++ 0#8 ++ 0#8 := by
  rw [BitVec.append_assoc, BitVec.append_assoc]
  rfl

theorem Format.mask_z : Format.z.mask = 0xFF#8 ++ 0xFF#8 ++ 0xFF#8 ++ 0xFF#8 := rfl
theorem Format.mask_a : Format.a.mask = 0xFF#8 ++ 0x00#8 ++ 0xFF#8 ++ 0xFF#8 := rfl
theorem Format.mask_ab : Format.ab.mask = 0xFF#8 ++ 0x00#8 ++ 0x00#8 ++ 0xFF#8 := rfl
theorem Format.mask_abc : Format.abc.mask = 0xFF#8 ++ 0x00#8 ++ 0x00#8 ++ 0x00#8 := rfl

theorem byte_and_ff (x : Byte) : x &&& 0xFF#8 = x := BitVec.and_allOnes

section Admits

variable {x y w : Byte}

@[simp] theorem Format.admits_z : Format.z.admits (x, y, w) = true ↔ x = 0#8 ∧ y = 0#8 ∧ w = 0#8 := by
  simp [Format.admits, and_assoc]

@[simp] theorem Format.admits_a : Format.a.admits (x, y, w) = true ↔ y = 0#8 ∧ w = 0#8 := by
  simp [Format.admits]

@[simp] theorem Format.admits_ab : Format.ab.admits (x, y, w) = true ↔ w = 0#8 := by
  simp [Format.admits]

@[simp] theorem Format.admits_abc : Format.abc.admits (x, y, w) = true := rfl

end Admits

/-- A word matches a row's mask and pattern when it has the row's opcode and zeros where the format reserves a field: the
mask keeps those fields whole and clears the operands (R82). -/
theorem and_mask_eq_pattern_iff (cw : CommandWord) (r : OpRow) :
    cw &&& r.format.mask = r.pattern ↔
      fieldOp cw = r.op ∧ r.format.admits (fieldA cw, fieldB cw, fieldC cw) = true := by
  obtain ⟨op, format⟩ := r
  rw [OpRow.pattern_eq, eq_append_iff, fieldOp_and, fieldA_and, fieldB_and, fieldC_and]
  cases format <;>
    simp only [Format.mask_z, Format.mask_a, Format.mask_ab, Format.mask_abc, fieldOp_append, fieldA_append,
      fieldB_append, fieldC_append, byte_and_ff, BitVec.and_zero, true_and, and_true, Format.admits_z, Format.admits_a,
      Format.admits_ab, Format.admits_abc]

/-! ### Reading a word as a command -/

theorem readAs_eq_ok_iff {f : Format} {cw : CommandWord} {i j : Instr} :
    readAs f cw i = .ok j ↔ f.admits (fieldA cw, fieldB cw, fieldC cw) = true ∧ i = j := by
  rcases readAs_cases f cw i with ⟨hadmits, h⟩ | ⟨hadmits, h⟩ <;> simp [h, hadmits]

/-- A word with the fields of a command is read as that command, in the arm of its opcode (R84). -/
theorem decode_eq_readAs {cw : CommandWord} (i : Instr) (hop : fieldOp cw = i.row.op) (ha : fieldA cw = i.fields.1)
    (hb : fieldB cw = i.fields.2.1) (hc : fieldC cw = i.fields.2.2) : decode cw = readAs i.row.format cw i := by
  rw [decode, hop]
  cases i
  -- format Z
  case nop | lfreset | lfgen | decrun | decgen | cfgload | sstart | sfetch | sadv | sstop | sgenc | slast | sdone => rfl
  -- format A
  case rdreg a | frcnt a | dpcnt a | drfl a | dsrd a | fird a | rprd a | lfseed a | encprep a | crc8 a | cobsenc a |
      cobsdec a | frbuild a | rxbyte a =>
    obtain rfl : fieldA cw = a := ha
    rfl
  -- format AB
  case frlen a b | frrd a b | cprd a b | cpmd a b | dprd a b | drrd a b | fiwr a b | ford a b | gfadd a b | gfsub a b |
      gfmul a b | gfdiv a b | gfpow a b | encpre a b | deccfg a b | cfgset a b =>
    obtain rfl : fieldA cw = a := ha
    obtain rfl : fieldB cw = b := hb
    rfl
  -- format ABC
  case frwr a b c | dpwr a b c =>
    obtain rfl : fieldA cw = a := ha
    obtain rfl : fieldB cw = b := hb
    obtain rfl : fieldC cw = c := hc
    rfl

/-- The row of a command stands in the opcode map, and its fields suit its format (R82, R84). -/
theorem Instr.row_mem_and_admits (i : Instr) : i.row ∈ opRows ∧ i.row.format.admits i.fields = true := by
  have h := Laws.instr_wellFormed i
  rw [Instr.wellFormed, Bool.and_eq_true, List.contains_iff_mem] at h
  exact h

theorem decode_encode (i : Instr) : decode (encode i) = .ok i := by
  obtain ⟨hop, ha, hb, hc⟩ := eq_append_iff.1 (rfl : encode i = _)
  obtain ⟨-, hadmits⟩ := i.row_mem_and_admits
  rw [decode_eq_readAs i hop ha hb hc, readAs_eq_ok_iff, ha, hb, hc]
  exact ⟨hadmits, rfl⟩

/-- What one arm of the decoder reads has the word's opcode and its operands, so it encodes to the word. -/
theorem encode_of_readAs {f : Format} {cw : CommandWord} {i j : Instr} (h : readAs f cw i = .ok j)
    (hop : (fieldOp cw).toNat = i.row.op.toNat)
    (hfields : f.admits (fieldA cw, fieldB cw, fieldC cw) = true → (fieldA cw, fieldB cw, fieldC cw) = i.fields) :
    encode j = cw := by
  obtain ⟨hadmits, rfl⟩ := readAs_eq_ok_iff.1 h
  rw [encode, ← hfields hadmits, ← BitVec.eq_of_toNat_eq hop]
  exact append_fields cw

/-- Each arm of the decoder reads a command of its opcode, with the operands of the word; a field that the format
reserves is zero in both (R82). -/
theorem encode_of_decode {cw : CommandWord} {i : Instr} (h : decode cw = .ok i) : encode i = cw := by
  unfold decode at h
  generalize hop : (fieldOp cw).toNat = op at h
  split at h
  case h_46 => contradiction
  all_goals exact encode_of_readAs h hop (by simp [Instr.fields])

/-- Decoding a word to a command is the inverse of encoding the command (R81, R82, R84). -/
theorem decode_eq_ok_iff {cw : CommandWord} {i : Instr} : decode cw = .ok i ↔ encode i = cw :=
  ⟨encode_of_decode, fun h => h ▸ decode_encode i⟩

/-- A word with an assigned opcode is read in the format of the opcode's row (R82, R84). -/
theorem decode_of_mem_opRows {cw : CommandWord} {r : OpRow} (hr : r ∈ opRows) (hop : fieldOp cw = r.op) :
    ∃ i, decode cw = readAs r.format cw i := by
  rw [decode, hop]
  simp only [opRows, List.mem_append] at hr
  rcases hr with (hr | hr) | hr <;> fin_cases hr <;> exact ⟨_, rfl⟩

/-- R82 and R85: the legal words are those with an assigned opcode and zeros in the fields that its format reserves. -/
theorem exists_decode_iff (cw : CommandWord) :
    (∃ i, decode cw = .ok i) ↔
      ∃ r ∈ opRows, fieldOp cw = r.op ∧ r.format.admits (fieldA cw, fieldB cw, fieldC cw) = true := by
  constructor
  · rintro ⟨i, hi⟩
    obtain ⟨hop, ha, hb, hc⟩ := eq_append_iff.1 (decode_eq_ok_iff.1 hi).symm
    obtain ⟨hmem, hadmits⟩ := i.row_mem_and_admits
    exact ⟨i.row, hmem, hop, by rwa [ha, hb, hc]⟩
  · rintro ⟨r, hr, hop, hadmits⟩
    obtain ⟨i, hi⟩ := decode_of_mem_opRows hr hop
    exact ⟨i, hi.trans (readAs_eq_ok_iff.2 ⟨hadmits, rfl⟩)⟩

/-- The legal words are those that match a row's mask and pattern (R82, R85). -/
theorem exists_decode_iff_matches (cw : CommandWord) :
    (∃ i, decode cw = .ok i) ↔ ∃ r ∈ opRows, cw &&& r.format.mask = r.pattern := by
  simp only [exists_decode_iff, and_mask_eq_pattern_iff]

theorem exists_decode_error {cw : CommandWord} (h : ∀ r ∈ opRows, cw &&& r.format.mask ≠ r.pattern) :
    ∃ e, decode cw = .error e := by
  cases hcw : decode cw with
  | error e => exact ⟨e, rfl⟩
  | ok i =>
    obtain ⟨r, hr, hmatch⟩ := (exists_decode_iff_matches cw).1 ⟨i, hcw⟩
    exact absurd hmatch (h r hr)

end Sys2Proof

namespace Sys2Proof.Machine

/-! ### The statements of 30_encoding.md -/

/-- Settles O1: the command's word has its fields, and those are read back in the arm of its opcode. -/
theorem decodeOfEncodeIsTheCommand : Obligations.DecodeOfEncodeIsTheCommand := decode_encode

/-- Settles O2: what is read has the opcode and the operands of the word, and the reserved fields are zero. -/
theorem encodeOfDecodeIsTheWord : Obligations.EncodeOfDecodeIsTheWord := fun _ _ => encode_of_decode

/-- Settles O3: both readings of legality are the decoder's. -/
theorem legalWordsAreTheTableRows : Obligations.LegalWordsAreTheTableRows :=
  fun cw => ⟨exists_decode_iff cw, exists_decode_iff_matches cw⟩

theorem ErrorKind.code_bounds (e : ErrorKind) : e.code ≠ 0 ∧ e.code ≤ 5 := by cases e <;> decide

/-- A response carries the low 16 bits of its value (R83). -/
theorem responseWord_mod (st val : Nat) : responseWord st (val % 2 ^ 16) = responseWord st val := by
  have hval : BitVec.ofNat 16 (val % 2 ^ 16) = BitVec.ofNat 16 val := BitVec.eq_of_toNat_eq (Nat.mod_mod ..)
  rw [responseWord, hval, responseWord]

/-- How a command's reply is answered (R83, R270): OK with the low 16 bits of the value and ERRLOG kept, or an error's
status with value 0 and its one ERRLOG bit. -/
theorem Reply.settle_form (r : Reply) :
    ∃ st val, st ≤ 5 ∧ val < 2 ^ 16 ∧ r.settle.response = some (responseWord st val) ∧ (st ≠ 0 → val = 0) ∧
      r.settle.errlog = if st = 0 then r.state.errlog else r.state.errlog ||| (1#6 <<< st) := by
  cases r with
  | value s v =>
    refine ⟨0, v % 2 ^ 16, by decide, Nat.mod_lt _ (by decide), ?_, absurd rfl, rfl⟩
    rw [Reply.settle_value, State.answer_response, responseWord_mod]
  | raise s e =>
    obtain ⟨hne, hle⟩ := e.code_bounds
    exact ⟨e.code, 0, hle, by decide, rfl, fun _ => rfl, (if_neg hne).symm⟩

/-- Settles O9: a command ends with a reply on a state with the old ERRLOG, and ending it gives the response. -/
theorem responsesCarryStatusAndErrlogBit : Obligations.ResponsesCarryStatusAndErrlogBit := by
  intro i s t ht
  obtain ⟨r, hr, heff⟩ := exec_effect i s
  obtain rfl : r.settle = t := Host.Outcome.next.inj (hr.symm.trans ht)
  rw [← heff.errlog]
  exact r.settle_form

/-- Settles O4: each word is the encoding of its command. -/
theorem sampleWordsDecode : Obligations.SampleWordsDecode := by
  simp only [Obligations.SampleWordsDecode, decode_eq_ok_iff]
  exact ⟨rfl, rfl, rfl, rfl, rfl, rfl, rfl, rfl, rfl, rfl⟩

/-- Settles O6: the word is no command, so the step takes it off the inbox and raises IllegalCommand. -/
theorem illegalWordSetsOnlyErrlogBitFive : Obligations.IllegalWordSetsOnlyErrlogBitFive := by
  intro s cw rest hin hillegal
  obtain ⟨e, he⟩ := exists_decode_error hillegal
  calc step s = execWord cw (s.setInbox rest) := step_of_command hin
    _ = .next (s.setInbox rest).rejectWord := execWord_of_error he _
    _ = _ := rfl

end Sys2Proof.Machine
end

section
/-! PROOFS. The system and access commands (40_access.md): each is a test of its operands and one access, so it answers the
access in range and ValidationError out of range (R100). -/

open Sys2Proof Sys2Proof.Certificates

namespace Sys2Proof.Machine

/-! ### Encoding, success and refusal -/

/-- Every command has its own row and operands as its encoding (R81, R82, R85). -/
theorem hasWord_row_fields (i : Instr) : HasWord i i.row.op i.fields.1 i.fields.2.1 i.fields.2.2 := by
  refine ⟨rfl, decode_encode i, fun cw hop hreserved => ?_⟩
  obtain ⟨hrow, -⟩ := i.row_mem_and_admits
  obtain ⟨j, hj⟩ := decode_of_mem_opRows hrow hop
  rw [hj, readAs, hreserved, hop]
  rfl

/-- A failing command that changes nothing of its own, in the words of the statements (R272). -/
theorem State.takeError_eq_errAfter (s : State) (e : ErrorKind) : s.takeError e = errAfter s e.code := by
  cases e <;> rfl

section Range

variable {s u : State} {v : Nat} {access : Reply} {p q : Prop} [Decidable p] [Decidable q]

theorem State.guarded_inRange (hp : p) : s.guarded (decide p) (.value u v) = .next (okAfter u v) := by
  rw [decide_eq_true hp, State.guarded_true, State.answer_eq_okAfter]

theorem State.guarded_outOfRange (hp : ¬ p) : s.guarded (decide p) access = .next (errAfter s 1) := by
  rw [decide_eq_false hp, State.guarded_false, State.takeError_eq_errAfter]
  rfl

theorem State.guarded_and_inRange (hp : p) (hq : q) :
    s.guarded (decide p && decide q) (.value u v) = .next (okAfter u v) := by
  rw [← Bool.decide_and, State.guarded_inRange ⟨hp, hq⟩]

theorem State.guarded_and_outOfRange (h : ¬ p ∨ ¬ q) :
    s.guarded (decide p && decide q) access = .next (errAfter s 1) := by
  rw [← Bool.decide_and, State.guarded_outOfRange (not_and_or.2 h)]

end Range

/-- The two ways in which a guarded access can end. -/
theorem State.guarded_cases (s u : State) (inRange : Bool) (v : Nat) :
    s.guarded inRange (.value u v) = .next (errAfter s 1) ∨ s.guarded inRange (.value u v) = .next (okAfter u v) := by
  cases inRange with
  | false => exact .inl (congrArg Host.Outcome.next (s.takeError_eq_errAfter .validationError))
  | true => exact .inr rfl

/-- The range of a one-byte index into FIN ends at 255 (R116, R117). -/
theorem not_lt_finSize {a : Byte} (ha : a = 0xFF#8) : ¬ a.toNat < Config.finSize := by
  subst ha
  decide

/-! ### RDREG -/

theorem bitVal_eq_toNat (b : Bool) : bitVal b = b.toNat := by cases b <;> rfl

theorem exec_rdreg_of_assigned {a : Byte} {r : Reg} (h : Reg.ofNumber a = some r) (s : State) :
    exec (.rdreg a) s = .next (okAfter s (s.regValue r)) := by
  change execRdreg a s = _
  rw [execRdreg, h]
  rfl

theorem exec_rdreg_of_unassigned {a : Byte} (h : Reg.ofNumber a = none) (s : State) :
    exec (.rdreg a) s = .next (errAfter s 1) := by
  change execRdreg a s = _
  rw [execRdreg, h]
  exact congrArg _ (s.takeError_eq_errAfter .validationError)

/-- Each row of the map gives an assigned number and the value of its register (R27 to R38). -/
theorem regValue_of_mem_registerMap (s : State) :
    ∀ x ∈ registerMap s, (Reg.ofNumber x.1).map s.regValue = some x.2 := by
  refine List.map_inj_left.1 ?_
  simp only [registerMap, ← bitVal_eq_toNat]
  rfl

/-- Each assigned number stands in the map; the numbers in it are the same in every state (R27 to R38). -/
theorem mem_registerMap_of_assigned {a : Byte} {r : Reg} (h : Reg.ofNumber a = some r) (s : State) :
    ∃ v, (a, v) ∈ registerMap s := by
  have hnumbers : ∀ n : Byte, (Reg.ofNumber n).isSome = true → n ∈ (registerMap State.reset).map Prod.fst := by
    decide +kernel
  have hmem : a ∈ (registerMap s).map Prod.fst := hnumbers a (by rw [h]; rfl)
  obtain ⟨⟨_, v⟩, hv, rfl⟩ := List.mem_map.1 hmem
  exact ⟨v, hv⟩

/-- Settles O15: the map lists the assigned numbers with their registers' values, and RDREG answers those. -/
theorem nopAndRdregCommands : Obligations.NopAndRdregCommands := by
  intro a s
  refine ⟨hasWord_row_fields .nop, hasWord_row_fields (.rdreg a), rfl, rfl, fun v hv => ?assigned, fun h => ?unassigned⟩
  case assigned =>
    obtain ⟨r, hr, rfl⟩ := Option.map_eq_some_iff.1 (regValue_of_mem_registerMap s _ hv)
    exact exec_rdreg_of_assigned hr s
  case unassigned =>
    refine exec_rdreg_of_unassigned (Option.eq_none_iff_forall_ne_some.2 fun r hr => ?_) s
    obtain ⟨v, hv⟩ := mem_registerMap_of_assigned hr s
    exact h v hv

/-! ### Counts and lengths -/

/-- Settles O16: each register write behind its test, in range and out of range. -/
theorem countAndLengthCommands : Obligations.CountAndLengthCommands := fun a b _ =>
  ⟨hasWord_row_fields (.dpcnt a),
    fun ha => State.guarded_inRange ha,
    fun ha => State.guarded_outOfRange (not_le.2 ha),
    hasWord_row_fields (.frcnt a), hasWord_row_fields (.frlen a b),
    fun ha => State.guarded_inRange ha,
    fun ha => State.guarded_outOfRange (not_le.2 ha),
    fun ha hb => State.guarded_and_inRange ha hb,
    fun h => State.guarded_and_outOfRange (h.imp not_lt.2 not_le.2)⟩

/-! ### One byte written -/

/-- What a write of one byte stores, and that it stores nothing else (R60). -/
theorem State.writeByte_stores (s : State) (sp : Space) (k : Nat) (v : Byte) (w : Nat) :
    ((s.writeByte sp k v).answer w).readByte sp k = v ∧
      SameBytesBut sp (fun key => key = k) s ((s.writeByte sp k v).answer w) := by
  refine ⟨s.readByte_writeByte_same sp k v, fun sp' key h => ?_⟩
  rw [State.readByte_answer, State.readByte_writeByte, if_neg h]

/-- A command that stores one byte and answers 0 leaves every register and every other byte as it was. -/
theorem stores_one_byte {s : State} {o : Host.Outcome State Fault Refusal} {sp : Space} {k : Nat} {v : Byte}
    (ho : o = .next (okAfter (s.writeByte sp k v) 0)) :
    ∃ t, o = .next t ∧ t.response = some (okWord 0) ∧ t.errlog = s.errlog ∧ SameUnits s t ∧
      t.readByte sp k = v ∧ SameBytesBut sp (fun key => key = k) s t :=
  ⟨_, ho, rfl, rfl, ⟨rfl, rfl, rfl, rfl, rfl, rfl, rfl, rfl, rfl⟩, s.writeByte_stores sp k v 0⟩

/-- Settles O17: in range each command is a write of one byte, out of range it is refused. -/
theorem memoryWritesStoreOneByte : Obligations.MemoryWritesStoreOneByte := fun a b c _ =>
  ⟨hasWord_row_fields (.frwr a b c), hasWord_row_fields (.dpwr a b c), hasWord_row_fields (.fiwr a b),
    fun ha hb => stores_one_byte (State.guarded_and_inRange ha hb),
    fun ha hb => stores_one_byte (State.guarded_and_inRange ha hb),
    fun ha => stores_one_byte (State.guarded_inRange (p := a.toNat < Config.finSize) ha),
    fun h => State.guarded_and_outOfRange (h.imp not_lt.2 not_lt.2),
    fun h => State.guarded_and_outOfRange (h.imp not_lt.2 not_lt.2),
    fun ha => State.guarded_outOfRange (not_lt_finSize ha)⟩

/-! ### One byte read -/

/-- Settles O18: each command answers the byte behind its test and leaves the state, or is refused. -/
theorem memoryReadsAnswerTheByte : Obligations.MemoryReadsAnswerTheByte := fun a b _ =>
  ⟨⟨hasWord_row_fields (.frrd a b), hasWord_row_fields (.cprd a b), hasWord_row_fields (.dprd a b),
      hasWord_row_fields (.drrd a b), hasWord_row_fields (.fird a), hasWord_row_fields (.ford a b),
      hasWord_row_fields (.rprd a)⟩,
    -- in range: FRRD, DPRD, FIRD, CPRD, DRRD, FORD, RPRD
    fun ha hb => State.guarded_and_inRange ha hb,
    fun ha hb => State.guarded_and_inRange ha hb,
    fun ha => State.guarded_inRange (p := a.toNat < Config.finSize) ha,
    fun ha hb => State.guarded_and_inRange ha hb,
    fun ha hb => State.guarded_and_inRange ha hb,
    fun hindex => State.guarded_inRange (p := joinedIndex a b < _) hindex,
    fun ha => State.guarded_inRange ha,
    -- out of range, in the same order
    fun h => State.guarded_and_outOfRange (h.imp not_lt.2 not_lt.2),
    fun h => State.guarded_and_outOfRange (h.imp not_lt.2 not_lt.2),
    fun ha => State.guarded_outOfRange (not_lt_finSize ha),
    fun h => State.guarded_and_outOfRange (h.imp not_lt.2 not_lt.2),
    fun h => State.guarded_and_outOfRange (h.imp not_lt.2 not_lt.2),
    fun hindex => State.guarded_outOfRange (p := joinedIndex a b < _) (not_lt.2 hindex),
    fun ha => State.guarded_outOfRange (not_lt.2 ha)⟩

/-! ### One register array read -/

theorem exec_cpmd_inRange {a b v : Byte} {s : State} (hsel : s.enc.packetMeta a.toNat b = some v)
    (ha : a.toNat < s.enc.cpkn.toNat) : exec (.cpmd a b) s = .next (okAfter s v.toNat) := by
  change execCpmd a b s = _
  simp only [execCpmd, hsel, if_pos ha]
  rfl

/-- CPMD tests its selector and then its packet slot, with one error for both (R107). -/
theorem exec_cpmd_outOfRange {a b : Byte} {s : State} (h : s.enc.cpkn.toNat ≤ a.toNat ∨ 1 < b.toNat) :
    exec (.cpmd a b) s = .next (errAfter s 1) := by
  have hrefused : exec (.cpmd a b) s = (Reply.raise s .validationError).complete := by
    change execCpmd a b s = _
    unfold execCpmd
    split
    · rfl
    · next v hsel =>
      have hb : ¬ 1 < b.toNat := by
        rcases s.enc.packetMeta_cases a.toNat b with ⟨rfl, -⟩ | ⟨rfl, -⟩ | ⟨-, hnone⟩
        · decide
        · decide
        · rw [hnone] at hsel; contradiction
      rw [if_neg (not_lt.2 (h.resolve_right hb))]
  rw [hrefused, Reply.complete_eq, Reply.settle_raise, State.takeError_eq_errAfter]
  rfl

/-- DRFL's packed flags, by the result registers of the row (R111). -/
theorem rowFlags_eq (s : State) (r : Nat) :
    s.dec.rowFlags r = pivAt s r * 256 + (redAt s r).toNat * 2 + (succAt s r).toNat := by
  rw [DecRegs.rowFlags, bitVal_eq_toNat, bitVal_eq_toNat]
  rfl

/-- Settles O19: CPMD by its selectors, DRFL and DSRD by their tests. -/
theorem packetAndRowReadsAnswerTheRegister : Obligations.PacketAndRowReadsAnswerTheRegister := by
  intro a b s
  refine ⟨hasWord_row_fields (.cpmd a b), hasWord_row_fields (.drfl a), hasWord_row_fields (.dsrd a),
    fun ha => ⟨exec_cpmd_inRange rfl ha, exec_cpmd_inRange rfl ha⟩, exec_cpmd_outOfRange, fun ha => ?drfl,
    fun ha => State.guarded_outOfRange (not_lt.2 ha), fun ha => State.guarded_inRange ha,
    fun ha => State.guarded_outOfRange (not_lt.2 ha)⟩
  case drfl =>
    rw [← rowFlags_eq]
    exact State.guarded_inRange ha

/-! ### The frame of every access command -/

/-- An access command ends with ValidationError on the old state, which NOP never does, or it succeeds (R100, R102). -/
theorem exec_access_cases {i : Instr} (hop : i.row.op.toNat < 0x20) (s : State) :
    (exec i s = .next (errAfter s 1) ∧ i ≠ .nop) ∨ ∃ u v, exec i s = .next (okAfter u v) := by
  cases i
  case nop => exact .inr ⟨s, 0, rfl⟩
  case rdreg a =>
    cases hr : Reg.ofNumber a with
    | none => exact .inl ⟨exec_rdreg_of_unassigned hr s, nofun⟩
    | some r => exact .inr ⟨s, _, exec_rdreg_of_assigned hr s⟩
  case cpmd a b =>
    by_cases h : s.enc.cpkn.toNat ≤ a.toNat ∨ 1 < b.toNat
    · exact .inl ⟨exec_cpmd_outOfRange h, nofun⟩
    · obtain ⟨ha, hb⟩ := not_or.1 h
      rcases s.enc.packetMeta_cases a.toNat b with ⟨-, hsel⟩ | ⟨-, hsel⟩ | ⟨hb', -⟩
      · exact .inr ⟨s, _, exec_cpmd_inRange hsel (not_le.1 ha)⟩
      · exact .inr ⟨s, _, exec_cpmd_inRange hsel (not_le.1 ha)⟩
      · exact absurd hb' hb
  case frcnt | frlen | frwr | frrd | cprd | dpcnt | dpwr | dprd | drrd | drfl | dsrd | fiwr | fird | ford | rprd =>
    exact (s.guarded_cases _ _ _).imp (⟨·, nofun⟩) fun h => ⟨_, _, h⟩
  all_goals simp [Instr.row] at hop

/-- A command that answers OK ends with a value, on a state that is one of its effects. -/
theorem exec_ok_effect {i : Instr} {s t : State} {w : Nat} (ht : exec i s = .next t)
    (hok : t.response = some (okWord w)) : ∃ u v, t = u.answer v ∧ Effect s i u := by
  obtain ⟨r, hr, heff⟩ := exec_effect i s
  obtain rfl : r.settle = t := Host.Outcome.next.inj (hr.symm.trans ht)
  cases r with
  | value u v => exact ⟨u, v, rfl, heff⟩
  | raise u e => exact absurd hok (u.takeError_response_ne_okWord e w)

section AccessEffect

variable {s u : State} {i : Instr} (heff : Effect s i u) (hop : i.row.op.toNat < 0x20) (v : Nat)
include heff hop

/-- No register but NFRAG, SRCLEN and DROWS is written by an access command (R100). -/
theorem Effect.sameUnits_of_access :
    SameUnits
      { s with
        enc := { s.enc with nfrag := u.enc.nfrag, srclen := u.enc.srclen }
        dec := { s.dec with rows := u.dec.rows } } (u.answer v) := by
  cases heff with
  | nothing | frcnt | frlen | frwr | dpcnt | dpwr | fiwr => exact ⟨rfl, rfl, rfl, rfl, rfl, rfl, rfl, rfl, rfl⟩
  | _ => simp [Instr.row] at hop

/-- NFRAG is written by FRCNT, one entry of SRCLEN by FRLEN, DROWS by DPCNT, each with its operand (R103, R104, R109). -/
theorem Effect.register_of_access :
    (u.enc.nfrag = s.enc.nfrag ∨ i = .frcnt u.enc.nfrag) ∧
      (u.enc.srclen = s.enc.srclen ∨ ∃ a b, i = .frlen a b ∧ u.enc.srclen = s.enc.srclen.set a.toNat b) ∧
      (u.dec.rows = s.dec.rows ∨ i = .dpcnt u.dec.rows) := by
  cases heff with
  | frcnt => exact ⟨.inr rfl, .inl rfl, .inl rfl⟩
  | frlen a b => exact ⟨.inl rfl, .inr ⟨a, b, rfl, rfl⟩, .inl rfl⟩
  | dpcnt => exact ⟨.inl rfl, .inl rfl, .inr rfl⟩
  | nothing | frwr | dpwr | fiwr => exact ⟨.inl rfl, .inl rfl, .inl rfl⟩
  | _ => simp [Instr.row] at hop

/-- A byte is written by FRWR, DPWR and FIWR, the one that the operands name (R105, R110, R116). -/
theorem Effect.memory_of_access :
    (u.answer v).mem = s.mem ∨
      (∃ a b c, i = .frwr a b c ∧ (u.answer v).readByte .src (cellKey a.toNat b.toNat) = c ∧
        SameBytesBut .src (fun key => key = cellKey a.toNat b.toNat) s (u.answer v)) ∨
      (∃ a b c, i = .dpwr a b c ∧ (u.answer v).readByte .dpkt (cellKey a.toNat b.toNat) = c ∧
        SameBytesBut .dpkt (fun key => key = cellKey a.toNat b.toNat) s (u.answer v)) ∨
      ∃ a b, i = .fiwr a b ∧ (u.answer v).readByte .fin a.toNat = b ∧
        SameBytesBut .fin (fun key => key = a.toNat) s (u.answer v) := by
  cases heff with
  | nothing | frcnt | frlen | dpcnt => exact .inl rfl
  | frwr a b c => exact .inr (.inl ⟨a, b, c, rfl, s.writeByte_stores ..⟩)
  | dpwr a b c => exact .inr (.inr (.inl ⟨a, b, c, rfl, s.writeByte_stores ..⟩))
  | fiwr a b => exact .inr (.inr (.inr ⟨a, b, rfl, s.writeByte_stores ..⟩))
  | _ => simp [Instr.row] at hop

end AccessEffect

/-- Settles O20: a refusal is the whole error, and a success has an effect, which is one of the access commands. -/
theorem accessCommandsTouchOnlyTheirOwn : Obligations.AccessCommandsTouchOnlyTheirOwn := by
  intro i s t hop ht
  rcases exec_access_cases hop s with ⟨herr, hnop⟩ | ⟨_, w, hok⟩
  · exact .inl ⟨Host.Outcome.next.inj (ht.symm.trans herr), hnop⟩
  · have hresponse : t.response = some (okWord w) := by rw [Host.Outcome.next.inj (ht.symm.trans hok)]; rfl
    obtain ⟨u, v, rfl, heff⟩ := exec_ok_effect ht hresponse
    obtain ⟨hnfrag, hsrclen, hrows⟩ := heff.register_of_access hop
    exact .inr ⟨heff.errlog, heff.sameUnits_of_access hop v, hnfrag, hsrclen, hrows, heff.memory_of_access hop v⟩

end Sys2Proof.Machine
end

section
/-! PROOFS. The field of R130 to R135. An element that is not zero is a power of x, which makes multiplication and
division by the tables addition and subtraction of exponents modulo 255; and the product without tables by a power of x
is a repeated product with x, so the two multiplications agree. -/

open Sys2Proof Sys2Proof.Certificates

namespace Sys2Proof.Machine

/-! ### Multiplication with x -/

/-- An exponent is taken modulo 255, the order of x. -/
theorem mod_order_lt (n : Nat) : n % 255 < 255 := Nat.mod_lt n (by decide)

/-- The product of a byte with x, reduced by 0x11D: one round of the building loop of R24. -/
def timesX (v : Byte) : Byte := if v.msb then (v <<< 1) ^^^ 0x1D#8 else v <<< 1

/-- A conditional XOR with a constant is additive in the pair of its condition and its operand. -/
theorem ite_xor_xor {w : Nat} (p q : Bool) (u v c : BitVec w) :
    (if p ^^ q then (u ^^^ v) ^^^ c else u ^^^ v) = (if p then u ^^^ c else u) ^^^ (if q then v ^^^ c else v) := by
  have hswap : (u ^^^ v) ^^^ c = (u ^^^ c) ^^^ v := by rw [BitVec.xor_assoc, BitVec.xor_comm v, ← BitVec.xor_assoc]
  cases p <;> cases q
  case false.false => rfl
  case false.true => exact BitVec.xor_assoc ..
  case true.false => exact hswap
  case true.true =>
    calc u ^^^ v = ((u ^^^ v) ^^^ c) ^^^ c := by rw [BitVec.xor_assoc, BitVec.xor_self, BitVec.xor_zero]
      _ = (u ^^^ c) ^^^ (v ^^^ c) := by rw [hswap, BitVec.xor_assoc]

theorem timesX_xor (u v : Byte) : timesX (u ^^^ v) = timesX u ^^^ timesX v := by
  simp only [timesX, BitVec.msb_xor, BitVec.shiftLeft_xor_distrib, ite_xor_xor]

theorem timesX_iterate_xor (n : Nat) (u v : Byte) : timesX^[n] (u ^^^ v) = timesX^[n] u ^^^ timesX^[n] v := by
  induction n generalizing u v with
  | zero => rfl
  | succ n ih => simp only [Function.iterate_succ_apply, timesX_xor, ih]

theorem timesX_iterate_zero (n : Nat) : timesX^[n] 0#8 = 0#8 := Function.iterate_fixed rfl n

/-- The table ALOG, its index taken modulo 255, is the powers of x (R24). -/
theorem alog_mod_eq_iterate (n : Nat) : alog (n % 255) = ⟨timesX^[n] 0x01#8⟩ := by
  induction n with
  | zero => rfl
  | succ n ih =>
    calc alog ((n + 1) % 255) = alog ((n % 255 + 1) % 255) := by rw [Nat.mod_add_mod]
      _ = ⟨timesX (alog (n % 255)).byte⟩ := alog_succ _ (mod_order_lt _)
      _ = ⟨timesX^[n + 1] 0x01#8⟩ := by rw [ih, Function.iterate_succ_apply']

theorem alog_eq_iterate {i : Nat} (hi : i < 255) : alog i = ⟨timesX^[i] 0x01#8⟩ := by
  rw [← alog_mod_eq_iterate, Nat.mod_eq_of_lt hi]

/-! ### The product without tables -/

/-- The XOR of `f i` over the bits `i` of `b` that are set. -/
def bitSum {w : Nat} (b : Byte) (f : Nat → BitVec w) : BitVec w :=
  (List.range 8).foldl (fun acc i => if b.getLsbD i then acc ^^^ f i else acc) 0#w

theorem polyProduct_eq_bitSum (a b : Byte) : polyProduct a b = bitSum b fun i => a.setWidth 16 <<< i := rfl

theorem bitSum_congr {w : Nat} {b : Byte} {f g : Nat → BitVec w} (h : ∀ i < 8, f i = g i) : bitSum b f = bitSum b g :=
  List.foldl_ext _ _ _ fun acc i hi => by rw [h i (List.mem_range.1 hi)]

/-- An additive map goes inside the sum. -/
theorem map_bitSum {w w' : Nat} {φ : BitVec w → BitVec w'} (hφ : ∀ u v, φ (u ^^^ v) = φ u ^^^ φ v) (b : Byte)
    (f : Nat → BitVec w) : φ (bitSum b f) = bitSum b fun i => φ (f i) := by
  have hzero : φ 0#w = 0#w' := by
    calc φ 0#w = φ (0#w ^^^ 0#w) := by rw [BitVec.xor_self]
      _ = 0#w' := by rw [hφ, BitVec.xor_self]
  rw [bitSum, bitSum, ← hzero]
  refine (List.foldl_hom φ fun acc i => ?_).symm
  rw [apply_ite φ, hφ]

theorem foldl_xor {w : Nat} {α : Type} {g : BitVec w → α → BitVec w} (hg : ∀ u v i, g (u ^^^ v) i = g u i ^^^ g v i)
    (l : List α) (u v : BitVec w) : l.foldl g (u ^^^ v) = l.foldl g u ^^^ l.foldl g v := by
  induction l generalizing u v with
  | nil => rfl
  | cons i l ih => rw [List.foldl_cons, hg, ih]; rfl

theorem polyRemainder_xor (u v : BitVec 16) : polyRemainder (u ^^^ v) = polyRemainder u ^^^ polyRemainder v := by
  unfold polyRemainder
  rw [foldl_xor (fun u v i => by rw [BitVec.getLsbD_xor, ite_xor_xor]), BitVec.setWidth_xor]

/-- A byte is the sum of its bits. -/
theorem bitSum_bit : ∀ b : Byte, (bitSum b fun i => 0x01#8 <<< i) = b := by decide +kernel

/-- The remainder of `a·x^i`: both sides are additive in `a`, and agree on the bytes of one bit. -/
theorem polyRemainder_shiftLeft {i : Nat} (hi : i < 8) (a : Byte) :
    polyRemainder (a.setWidth 16 <<< i) = timesX^[i] a := by
  have hbit : ∀ i < 8, ∀ j < 8, polyRemainder ((0x01#8 <<< j).setWidth 16 <<< i) = timesX^[i] (0x01#8 <<< j) := by
    decide +kernel
  have hadd (u v : Byte) : polyRemainder ((u ^^^ v).setWidth 16 <<< i) =
      polyRemainder (u.setWidth 16 <<< i) ^^^ polyRemainder (v.setWidth 16 <<< i) := by
    rw [BitVec.setWidth_xor, BitVec.shiftLeft_xor_distrib, polyRemainder_xor]
  rw [← bitSum_bit a, map_bitSum (φ := fun u => polyRemainder (u.setWidth 16 <<< i)) hadd,
    map_bitSum (timesX_iterate_xor i)]
  exact bitSum_congr (hbit i hi)

/-- The product is the sum of `a·x^i` over the bits of `b`, each reduced by itself. -/
theorem polyMul_eq_bitSum (a b : Byte) : polyMul a b = bitSum b fun i => timesX^[i] a := by
  rw [polyMul, polyProduct_eq_bitSum, map_bitSum polyRemainder_xor]
  exact bitSum_congr fun i hi => polyRemainder_shiftLeft hi a

theorem polyMul_timesX (a b : Byte) : polyMul (timesX a) b = timesX (polyMul a b) := by
  simp only [polyMul_eq_bitSum, map_bitSum timesX_xor, ← Function.iterate_succ_apply, Function.iterate_succ_apply']

theorem polyMul_one_left (b : Byte) : polyMul 0x01#8 b = b := by
  have hpower : ∀ i < 8, timesX^[i] 0x01#8 = 0x01#8 <<< i := by decide
  rw [polyMul_eq_bitSum, bitSum_congr hpower, bitSum_bit]

theorem polyMul_zero_left (b : Byte) : polyMul 0x00#8 b = 0x00#8 := by
  simp only [polyMul_eq_bitSum, timesX_iterate_zero]
  exact (map_bitSum (φ := fun _ => 0#8) (fun _ _ => rfl) b fun _ => 0#8).symm

/-- To multiply with a power of x is to multiply with x as often. -/
theorem polyMul_iterate_timesX (n : Nat) (b : Byte) : polyMul (timesX^[n] 0x01#8) b = timesX^[n] b := by
  have hcommute : Function.Semiconj (polyMul · b) timesX timesX := fun a => polyMul_timesX a b
  rw [(hcommute.iterate_right n).eq, polyMul_one_left]

/-! ### The tables' product and quotient by exponents -/

theorem alog_ne_zero : ∀ i < 255, alog i ≠ GF.zero := by decide +kernel

/-- Zero is no power of x, and every other element is one (R24, R25). -/
theorem eq_zero_or_alog (x : GF) : x = GF.zero ∨ ∃ i < 255, x = alog i := by
  by_cases hx : x = GF.zero
  · exact .inl hx
  · obtain ⟨hlt, hinv⟩ := gfLog_spec hx
    exact .inr ⟨gfLog x, hlt, hinv.symm⟩

theorem exists_alog {x : GF} (hx : x ≠ GF.zero) : ∃ i < 255, x = alog i := (eq_zero_or_alog x).resolve_left hx

theorem byte_inj {x y : GF} : x.byte = y.byte ↔ x = y := ⟨congrArg GF.mk, congrArg GF.byte⟩

theorem gfAdd_byte (x y : GF) : (gfAdd x y).byte = x.byte ^^^ y.byte := rfl

theorem gfMul_comm (x y : GF) : gfMul x y = gfMul y x := by
  simp only [gfMul, or_comm, Nat.add_comm]

theorem gfMul_zero_left (x : GF) : gfMul GF.zero x = GF.zero := if_pos (.inl rfl)

section Exponents

variable {i j : Nat} (hi : i < 255) (hj : j < 255)
include hi hj

theorem gfMul_alog : gfMul (alog i) (alog j) = alog ((i + j) % 255) := by
  rw [gfMul, if_neg (not_or.2 ⟨alog_ne_zero i hi, alog_ne_zero j hj⟩), gfLog_alog i hi, gfLog_alog j hj]

theorem gfQuot_alog : gfQuot (alog i) (alog j) = alog ((255 + i - j) % 255) := by
  rw [gfQuot, if_neg (alog_ne_zero i hi), gfLog_alog i hi, gfLog_alog j hj]

end Exponents

theorem gfMul_assoc (x y z : GF) : gfMul (gfMul x y) z = gfMul x (gfMul y z) := by
  obtain rfl | ⟨i, hi, rfl⟩ := eq_zero_or_alog x
  · simp only [gfMul_zero_left]
  obtain rfl | ⟨j, hj, rfl⟩ := eq_zero_or_alog y
  · simp only [gfMul_zero_left, gfMul_zero]
  obtain rfl | ⟨k, hk, rfl⟩ := eq_zero_or_alog z
  · simp only [gfMul_zero]
  rw [gfMul_alog hi hj, gfMul_alog (mod_order_lt _) hk, gfMul_alog hj hk, gfMul_alog hi (mod_order_lt _),
    Nat.mod_add_mod, Nat.add_mod_mod, Nat.add_assoc]

/-- Division by `y` undoes multiplication with it, and the other way round (R133). -/
theorem gfMul_eq_iff_eq_gfQuot {x y z : GF} (hy : y ≠ GF.zero) : gfMul x y = z ↔ x = gfQuot z y := by
  obtain ⟨j, hj, rfl⟩ := exists_alog hy
  constructor
  · rintro rfl
    obtain rfl | ⟨i, hi, rfl⟩ := eq_zero_or_alog x
    · rw [gfMul_zero_left, gfQuot_zero_left]
    · rw [gfMul_alog hi hj, gfQuot_alog (mod_order_lt _) hj]
      congr 1
      omega
  · rintro rfl
    obtain rfl | ⟨k, hk, rfl⟩ := eq_zero_or_alog z
    · rw [gfQuot_zero_left, gfMul_zero_left]
    · rw [gfQuot_alog hk hj, gfMul_alog (mod_order_lt _) hj]
      congr 1
      omega

/-! ### The two products agree -/

/-- The tables' product with `alog i` is `i` multiplications with x, whatever the other factor is. -/
theorem gfMul_alog_byte {i : Nat} (hi : i < 255) (y : GF) : (gfMul (alog i) y).byte = timesX^[i] y.byte := by
  obtain rfl | ⟨j, hj, rfl⟩ := eq_zero_or_alog y
  · rw [gfMul_zero, timesX_iterate_zero]
  · rw [gfMul_alog hi hj, alog_mod_eq_iterate, alog_eq_iterate hj, Function.iterate_add_apply]

/-- R135: the product by the tables is the product of polynomials modulo 0x11D. -/
theorem gfMul_byte (x y : GF) : (gfMul x y).byte = polyMul x.byte y.byte := by
  obtain rfl | ⟨i, hi, rfl⟩ := eq_zero_or_alog x
  · rw [gfMul_zero_left, polyMul_zero_left]
  · rw [gfMul_alog_byte hi, ← polyMul_iterate_timesX, alog_eq_iterate hi]

theorem gfMul_gfAdd (x y z : GF) : gfMul x (gfAdd y z) = gfAdd (gfMul x y) (gfMul x z) := by
  obtain rfl | ⟨i, hi, rfl⟩ := eq_zero_or_alog x
  · simp only [gfMul_zero_left]; rfl
  · rw [← byte_inj]
    simp only [gfAdd_byte, gfMul_alog_byte hi, timesX_iterate_xor]

/-! ### Division and powers -/

theorem gfDiv_eq_some {x y : GF} (hy : y ≠ GF.zero) : gfDiv x y = some (gfQuot x y) := if_neg hy

theorem gfDiv_zero (x : GF) : gfDiv x GF.zero = none := if_pos rfl

section Inverse

variable {y : GF} (hy : y ≠ GF.zero)
include hy

theorem gfDiv_gfMul (x : GF) : gfDiv (gfMul x y) y = some x := by
  rw [gfDiv_eq_some hy, ← (gfMul_eq_iff_eq_gfQuot hy).1 rfl]

/-- The quotient of one is the inverse, and a quotient is the product with it (R135). -/
theorem gfDiv_one_is_inverse (x : GF) :
    ∃ w, gfDiv GF.one y = some w ∧ gfMul y w = GF.one ∧ gfDiv x y = some (gfMul x w) := by
  have hinv : gfMul y (gfQuot GF.one y) = GF.one := by rw [gfMul_comm, (gfMul_eq_iff_eq_gfQuot hy).2 rfl]
  refine ⟨gfQuot GF.one y, gfDiv_eq_some hy, hinv, ?_⟩
  have hx : gfMul (gfMul x (gfQuot GF.one y)) y = x := by rw [gfMul_assoc, gfMul_comm _ y, hinv, gfMul_one]
  rw [gfDiv_eq_some hy, ← (gfMul_eq_iff_eq_gfQuot hy).1 hx]

end Inverse

theorem gfPow_succ (x : GF) (e : Nat) : gfPow x (e + 1) = gfMul x (gfPow x e) := gfMul_comm ..

theorem gfPow_byte (x : GF) (e : Nat) : (gfPow x e).byte = (polyMul x.byte)^[e] 0x01#8 := by
  induction e with
  | zero => rfl
  | succ e ih => rw [gfPow_succ, gfMul_byte, ih, Function.iterate_succ_apply']

theorem gfPow_zero_base {e : Nat} (he : e ≠ 0) : gfPow GF.zero e = GF.zero := by
  cases e with
  | zero => contradiction
  | succ e => rw [gfPow_succ, gfMul_zero_left]

theorem gfPow_alog {i : Nat} (hi : i < 255) (e : Nat) : gfPow (alog i) e = alog (i * e % 255) := by
  induction e with
  | zero => rw [Nat.mul_zero]; rfl
  | succ e ih => rw [gfPow_succ, ih, gfMul_alog hi (mod_order_lt _), Nat.add_mod_mod, Nat.mul_succ, Nat.add_comm]

/-- The order of every element but zero divides 255 (R140). -/
theorem gfPow_255 {x : GF} (hx : x ≠ GF.zero) : gfPow x 255 = GF.one := by
  obtain ⟨i, hi, rfl⟩ := exists_alog hx
  rw [gfPow_alog hi, Nat.mul_mod_left]
  rfl

/-- Settles O22: sums by bits, products and quotients by exponents. -/
theorem fieldLaws : Obligations.FieldLaws := fun x y z =>
  ⟨gfMul_byte x y,
    congrArg GF.mk (BitVec.xor_comm ..), congrArg GF.mk (BitVec.xor_assoc ..), gfSub_zero x, gfSub_self x, rfl,
    gfMul_comm x y, gfMul_assoc x y z, gfMul_one x, gfMul_gfAdd x y z,
    fun hy => ⟨gfDiv_gfMul hy x, gfDiv_one_is_inverse hy x⟩, gfDiv_zero x⟩

end Sys2Proof.Machine
end

section
/-! PROOFS. The field commands (41_field.md): each answers its function's value, and the one error is GFDIV's by
zero. -/

open Sys2Proof Sys2Proof.Certificates

namespace Sys2Proof.Machine

/-! ### Sum and product -/

theorem exec_gfmul (a b : Byte) (s : State) : exec (.gfmul a b) s = .next (okAfter s (polyMul a b).toNat) := by
  rw [← gfMul_byte ⟨a⟩ ⟨b⟩]
  rfl

/-- Settles O24: sums are XOR by definition, and the product by the tables is the field's. -/
theorem gfAddSubMulAnswerTheField : Obligations.GfAddSubMulAnswerTheField := fun a b s =>
  ⟨hasWord_row_fields (.gfadd a b), hasWord_row_fields (.gfsub a b), hasWord_row_fields (.gfmul a b), rfl, rfl,
    exec_gfmul a b s⟩

/-! ### Quotient -/

/-- A byte that is not 0 is an element that is not zero (R130). -/
theorem mk_ne_zero {a : Byte} (ha : a ≠ 0#8) : (⟨a⟩ : GF) ≠ GF.zero := fun h => ha (congrArg GF.byte h)

theorem exec_gfdiv_of_ne_zero (a : Byte) {b : Byte} (hb : b ≠ 0#8) (s : State) :
    exec (.gfdiv a b) s = .next (okAfter s (gfQuot ⟨a⟩ ⟨b⟩).byte.toNat) := by
  change execGfdiv a b s = _
  rw [execGfdiv, gfDiv_eq_some (mk_ne_zero hb)]
  rfl

theorem exec_gfdiv_zero (a : Byte) (s : State) : exec (.gfdiv a 0#8) s = .next (errAfter s 3) := by
  change execGfdiv a 0#8 s = _
  rw [execGfdiv, gfDiv_zero]
  exact congrArg _ (s.takeError_eq_errAfter .divisionByZero)

theorem polyMul_eq_iff_eq_gfQuot {a b x : Byte} (hb : b ≠ 0#8) : polyMul x b = a ↔ x = (gfQuot ⟨a⟩ ⟨b⟩).byte := by
  calc polyMul x b = a ↔ gfMul ⟨x⟩ ⟨b⟩ = ⟨a⟩ := by rw [← byte_inj, gfMul_byte]
    _ ↔ ⟨x⟩ = gfQuot ⟨a⟩ ⟨b⟩ := gfMul_eq_iff_eq_gfQuot (mk_ne_zero hb)
    _ ↔ x = (gfQuot ⟨a⟩ ⟨b⟩).byte := byte_inj.symm

/-- Settles O25: the quotient is the one solution, and zero is tested first. -/
theorem gfdivAnswersTheQuotient : Obligations.GfdivAnswersTheQuotient := fun a b s =>
  ⟨hasWord_row_fields (.gfdiv a b),
    fun hb => ⟨_, exec_gfdiv_of_ne_zero a hb s, fun _ => polyMul_eq_iff_eq_gfQuot hb⟩, exec_gfdiv_zero a s⟩

/-! ### Power -/

theorem exec_gfpow {a b : Byte} {e : Nat} (he : b.toNat = e) (s : State) :
    exec (.gfpow a b) s = .next (okAfter s (gfPow ⟨a⟩ e).byte.toNat) := by
  subst he
  rfl

/-- The power 254 of an element is its inverse (R140). -/
theorem polyMul_gfPow_254 {a : Byte} (ha : a ≠ 0#8) : polyMul a (gfPow ⟨a⟩ 254).byte = 0x01#8 := by
  calc polyMul a (gfPow ⟨a⟩ 254).byte = (gfMul ⟨a⟩ (gfPow ⟨a⟩ 254)).byte := (gfMul_byte ..).symm
    _ = 0x01#8 := by rw [← gfPow_succ, gfPow_255 (mk_ne_zero ha)]

/-- Settles O26: the power is the repeated product, and the corner cases are powers of zero and of the powers of x. -/
theorem gfpowAnswersThePower : Obligations.GfpowAnswersThePower := by
  intro a b s
  refine ⟨hasWord_row_fields (.gfpow a b), ?power, rfl, fun hb => ?zeroBase,
    fun ha => ⟨?order, _, exec_gfpow (e := 254) rfl s, polyMul_gfPow_254 ha⟩⟩
  case power => rw [exec_gfpow rfl, gfPow_byte]
  case zeroBase =>
    have he : b.toNat ≠ 0 := fun h => hb (BitVec.eq_of_toNat_eq h)
    rw [exec_gfpow rfl, gfPow_zero_base he]
    rfl
  case order =>
    rw [exec_gfpow (e := 255) rfl, gfPow_255 (mk_ne_zero ha)]
    rfl

end Sys2Proof.Machine
end

section
/-! PROOFS. The shift register of R150 and its cycle (R156): 0 stays, and the powers of the step on the byte 1 are 255
different bytes, so they are all the others, each with the period of 1. -/

open Sys2Proof Sys2Proof.Certificates

namespace Sys2Proof.Machine

/-! ### One step, bit by bit -/

/-- The new byte is the feedback bit above the seven upper bits of the old one (R150). -/
theorem lfsrStep_getLsbD (v : Byte) (i : Nat) :
    (lfsrStep v).getLsbD i =
      if i < 7 then (v.extractLsb' 1 7).getLsbD i
      else (BitVec.ofBool (v.getLsbD 0 ^^ v.getLsbD 1 ^^ v.getLsbD 2 ^^ v.getLsbD 7)).getLsbD (i - 7) :=
  BitVec.getLsbD_append

theorem lfsrStep_getLsbD_seven (v : Byte) :
    (lfsrStep v).getLsbD 7 = (v.getLsbD 0 ^^ v.getLsbD 1 ^^ v.getLsbD 2 ^^ v.getLsbD 7) := by
  rw [lfsrStep_getLsbD, if_neg (lt_irrefl 7), Nat.sub_self, BitVec.getLsbD_ofBool, decide_eq_true rfl, Bool.true_and]

theorem lfsrStep_getLsbD_of_lt (v : Byte) {i : Nat} (hi : i < 7) : (lfsrStep v).getLsbD i = v.getLsbD (i + 1) := by
  rw [lfsrStep_getLsbD, if_pos hi, BitVec.getLsbD_extractLsb', decide_eq_true hi, Bool.true_and, Nat.add_comm]

/-- Settles O27: the new bit 7 is the feedback, and the others are shifted down. -/
theorem lfsrStepShiftsInTheFeedback : Obligations.LfsrStepShiftsInTheFeedback := fun v =>
  ⟨lfsrStep_getLsbD_seven v, fun _ hi => lfsrStep_getLsbD_of_lt v hi⟩

/-! ### The step is a bijection that keeps 0 -/

/-- Bits 1 to 7 are read off the shifted bits, and then bit 0 off the feedback. -/
theorem lfsrStep_injective : Function.Injective lfsrStep := by
  intro u v h
  have hshifted {i : Nat} (hi : i < 7) : u.getLsbD (i + 1) = v.getLsbD (i + 1) := by
    rw [← lfsrStep_getLsbD_of_lt u hi, h, lfsrStep_getLsbD_of_lt v hi]
  have hlow : u.getLsbD 0 = v.getLsbD 0 := by
    have hfeedback : (lfsrStep u).getLsbD 7 = (lfsrStep v).getLsbD 7 := by rw [h]
    rw [lfsrStep_getLsbD_seven, lfsrStep_getLsbD_seven, hshifted (i := 0) (by decide), hshifted (i := 1) (by decide),
      hshifted (i := 6) (by decide)] at hfeedback
    simpa using hfeedback
  refine BitVec.eq_of_getLsbD_eq fun i hi => ?_
  cases i with
  | zero => exact hlow
  | succ i => exact hshifted (Nat.lt_of_succ_lt_succ hi)

theorem lfsrStep_bijective : Function.Bijective lfsrStep := Finite.injective_iff_bijective.1 lfsrStep_injective

theorem lfsrStep_zero : lfsrStep 0#8 = 0#8 := rfl

/-- A non-zero seed never gives the output 0 (R156). -/
theorem lfsrStep_iterate_ne_zero {v : Byte} (hv : v ≠ 0#8) (n : Nat) : lfsrStep^[n] v ≠ 0#8 := by
  have hzero : lfsrStep^[n] 0#8 = 0#8 := Function.iterate_fixed lfsrStep_zero n
  rw [← hzero]
  exact (lfsrStep_injective.iterate n).ne hv

/-! ### The cycle -/

/-- The period of the byte 1 is a divisor of 255, and none of the proper ones. -/
theorem minimalPeriod_lfsrStep_one : Function.minimalPeriod lfsrStep 0x01#8 = 255 := by
  have hperiod : lfsrStep^[255] 0x01#8 = 0x01#8 := by decide +kernel
  have hproper : ∀ d ∈ Nat.properDivisors 255, lfsrStep^[d] 0x01#8 ≠ 0x01#8 := by decide +kernel
  have hdvd : Function.minimalPeriod lfsrStep 0x01#8 ∣ 255 := Function.IsPeriodicPt.minimalPeriod_dvd hperiod
  by_contra hne
  have hlt := lt_of_le_of_ne (Nat.le_of_dvd (by decide) hdvd) hne
  exact hproper _ (Nat.mem_properDivisors.2 ⟨hdvd, hlt⟩) Function.iterate_minimalPeriod

theorem card_byte : Fintype.card Byte = 256 := FinEnum.card_eq_fintypeCard.symm.trans (FinEnum.card_bitVec 8)

/-- The first 255 bytes from 1 on are different and not 0, so they are all the non-zero bytes. -/
theorem image_lfsrStep_iterate_one :
    ((Finset.range 255).image fun i => lfsrStep^[i] 0x01#8) = Finset.univ.erase 0#8 := by
  refine Finset.eq_of_subset_of_card_le (fun w hw => ?nonzero) (Eq.le ?card)
  case nonzero =>
    obtain ⟨i, -, rfl⟩ := Finset.mem_image.1 hw
    exact Finset.mem_erase.2 ⟨lfsrStep_iterate_ne_zero (by decide) i, Finset.mem_univ _⟩
  case card =>
    have hinj : Set.InjOn (fun i => lfsrStep^[i] 0x01#8) (Finset.range 255) := by
      rw [Finset.coe_range, ← minimalPeriod_lfsrStep_one]
      exact Function.iterate_injOn_Iio_minimalPeriod
    rw [Finset.card_image_of_injOn hinj, Finset.card_range, Finset.card_erase_of_mem (Finset.mem_univ _),
      Finset.card_univ, card_byte]

theorem exists_lfsrStep_iterate_one {v : Byte} (hv : v ≠ 0#8) : ∃ i, lfsrStep^[i] 0x01#8 = v := by
  have hmem : v ∈ Finset.univ.erase 0#8 := Finset.mem_erase.2 ⟨hv, Finset.mem_univ v⟩
  rw [← image_lfsrStep_iterate_one] at hmem
  obtain ⟨i, -, hi⟩ := Finset.mem_image.1 hmem
  exact ⟨i, hi⟩

/-- All non-zero bytes lie on the cycle of 1, and so have its period. -/
theorem minimalPeriod_lfsrStep {v : Byte} (hv : v ≠ 0#8) : Function.minimalPeriod lfsrStep v = 255 := by
  obtain ⟨i, rfl⟩ := exists_lfsrStep_iterate_one hv
  have hperiodic : 0x01#8 ∈ Function.periodicPts lfsrStep :=
    Function.minimalPeriod_pos_iff_mem_periodicPts.1 (by rw [minimalPeriod_lfsrStep_one]; decide)
  rw [Function.minimalPeriod_apply_iterate hperiodic, minimalPeriod_lfsrStep_one]

/-- Settles O28: the least period of every non-zero byte is 255. -/
theorem lfsrHasPeriod255 : Obligations.LfsrHasPeriod255 := by
  refine ⟨lfsrStep_bijective, lfsrStep_zero, fun v hv => ?_⟩
  have hperiod := minimalPeriod_lfsrStep hv
  refine ⟨hperiod ▸ Function.iterate_minimalPeriod, fun n hpos hlt => ⟨?_, lfsrStep_iterate_ne_zero hv n⟩⟩
  exact Function.not_isPeriodicPt_of_pos_of_lt_minimalPeriod hpos.ne' (hperiod.symm ▸ hlt)

end Sys2Proof.Machine
end

section
/-! PROOFS. The generator's commands (42_lfsr.md): LFSEED and LFRESET put it at the start of a seed's stream, and LFGEN
draws from it until the count is 255. -/

open Sys2Proof Sys2Proof.Certificates

namespace Sys2Proof.Machine

/-! ### LFSEED and LFRESET -/

/-- The generator at the start of the stream of the seed `a` (R152). -/
def CgRegs.start (a : Byte) : CgRegs := { seed := a, state := a, count := 0#8 }

theorem exec_lfseed (a : Byte) (s : State) : exec (.lfseed a) s = .next (okAfter (s.setCg (.start a)) 0) := rfl

theorem exec_lfreset (s : State) : exec .lfreset s = .next (okAfter (s.setCg (.start s.cg.seed)) 0) := rfl

/-- Settles O29: both put the generator at the start of the stream of the seed it then holds. -/
theorem lfseedAndLfresetStartTheStream : Obligations.LfseedAndLfresetStartTheStream := fun a s =>
  ⟨hasWord_row_fields (.lfseed a), hasWord_row_fields .lfreset, exec_lfseed a s, exec_lfreset s⟩

/-- Either way of restarting the generator with the seed `a` (R151, R152). -/
theorem cg_of_restart {a : Byte} {s t : State}
    (h : exec (.lfseed a) s = .next t ∨ (exec .lfreset s = .next t ∧ s.cg.seed = a)) : t.cg = .start a := by
  rcases h with hseed | ⟨hreset, rfl⟩
  · rw [← Host.Outcome.next.inj ((exec_lfseed a s).symm.trans hseed)]
    rfl
  · rw [← Host.Outcome.next.inj ((exec_lfreset s).symm.trans hreset)]
    rfl

/-! ### LFGEN -/

theorem exec_lfgen_of_lt {s : State} (h : s.cg.count.toNat < 255) :
    exec .lfgen s = .next (okAfter (s.setCg s.cg.draw) (lfsrStep s.cg.state).toNat) := by
  change execLfgen s = _
  rcases s.cg.generate_cases with ⟨hge, -⟩ | ⟨-, hdraw⟩
  · omega
  · rw [execLfgen, hdraw]
    rfl

theorem exec_lfgen_of_exhausted {s : State} (h : s.cg.count = 255#8) : exec .lfgen s = .next (errAfter s 2) := by
  change execLfgen s = _
  rcases s.cg.generate_cases with ⟨-, hnone⟩ | ⟨hlt, -⟩
  · rw [execLfgen, hnone]
    exact congrArg _ (s.takeError_eq_errAfter .cycleExhausted)
  · rw [h] at hlt
    exact absurd hlt (by decide)

/-- Settles O30: the count alone decides between a draw and the error. -/
theorem lfgenDrawsOneCoefficient : Obligations.LfgenDrawsOneCoefficient := fun _ =>
  ⟨hasWord_row_fields .lfgen, exec_lfgen_of_lt, exec_lfgen_of_exhausted⟩

/-! ### A run of draws -/

theorem after_eq_of_exec {i : Instr} {s t : State} (h : exec i s = .next t) : after i s = t := by
  rw [after, h]

theorem after_lfgen_of_exhausted {s : State} (h : s.cg.count = 255#8) : after .lfgen s = errAfter s 2 :=
  after_eq_of_exec (exec_lfgen_of_exhausted h)

theorem drawn_succ (s : State) (n : Nat) : drawn s (n + 1) = after .lfgen (drawn s n) :=
  Function.iterate_succ_apply' ..

theorem errAfter_cg (s : State) (st : Nat) : (errAfter s st).cg = s.cg := rfl

/-- The error a second time leaves nothing more than the first (R270). -/
theorem errAfter_errAfter (s : State) (st : Nat) : errAfter (errAfter s st) st = errAfter s st := by
  simp only [errAfter, BitVec.or_assoc, BitVec.or_self]

section Stream

variable {a : Byte} {t : State}

/-- The next draw of a stream that has not ended, and the generator that it meets. -/
theorem drawn_succ_of_cg {n : Nat} (hn : n < 255)
    (hcg : (drawn t n).cg = { seed := a, state := lfsrStep^[n] a, count := BitVec.ofNat 8 n }) :
    drawn t (n + 1) = okAfter ((drawn t n).setCg
      { seed := a, state := lfsrStep^[n + 1] a, count := BitVec.ofNat 8 (n + 1) }) (lfsrStep^[n + 1] a).toNat := by
  have hcount : (drawn t n).cg.count.toNat < 255 := by
    rw [hcg, BitVec.toNat_ofNat]
    omega
  rw [drawn_succ, after_eq_of_exec (exec_lfgen_of_lt hcount), hcg, CgRegs.draw, ← BitVec.ofNat_add,
    Function.iterate_succ_apply']

variable (ht : t.cg = .start a)
include ht

theorem drawn_cg {n : Nat} (hn : n ≤ 255) :
    (drawn t n).cg = { seed := a, state := lfsrStep^[n] a, count := BitVec.ofNat 8 n } := by
  induction n with
  | zero => exact ht
  | succ n ih =>
    rw [drawn_succ_of_cg hn (ih (Nat.le_of_succ_le hn))]
    rfl

theorem drawn_response {n : Nat} (hpos : 0 < n) (hn : n ≤ 255) :
    (drawn t n).response = some (okWord (lfsrStep^[n] a).toNat) := by
  cases n with
  | zero => contradiction
  | succ n =>
    rw [drawn_succ_of_cg hn (drawn_cg ht (Nat.le_of_succ_le hn))]
    rfl

theorem drawn_of_exhausted {n : Nat} (hn : 255 < n) : drawn t n = errAfter (drawn t 255) 2 := by
  have hcount : (drawn t 255).cg.count = 255#8 := congrArg CgRegs.count (drawn_cg ht le_rfl)
  induction n, hn using Nat.le_induction with
  | base => rw [drawn_succ, after_lfgen_of_exhausted hcount]
  | succ n _ ih =>
    rw [drawn_succ, ih, after_lfgen_of_exhausted (by rw [errAfter_cg, hcount]), errAfter_errAfter]

end Stream

/-- Settles O31, by induction over the draws on either side of the 255th. -/
theorem exactly255DrawsSucceed : Obligations.Exactly255DrawsSucceed := by
  intro a s t hrestart
  have ht := cg_of_restart hrestart
  exact ⟨fun _ hn => ⟨drawn_cg ht hn, fun hpos => drawn_response ht hpos hn⟩, fun _ hn => drawn_of_exhausted ht hn⟩

end Sys2Proof.Machine
end

section
/-! PROOFS. ENCPREP and SADV (43_encoder.md R167, R169, 45_session.md R219): both check before they write, so a refusal
leaves everything but the error. -/

open Sys2Proof Sys2Proof.Certificates

namespace Sys2Proof.Machine

/-! ### ENCPREP -/

theorem State.equalLengths_iff (s : State) : s.enc.equalLengths = true ↔ EqualLengths s :=
  s.enc.equalLengths_iff

theorem preprocess_of_equalLengths {s : State} {k : Nat} (hk1 : 1 ≤ k) (hk16 : k ≤ 16) (h : EqualLengths s) :
    s.enc.preprocess k = some (preprocessed s k) := by
  rcases s.enc.preprocess_cases k with ⟨hrefused, -⟩ | ⟨-, hsome⟩
  · exact absurd ⟨hk1, hk16, s.equalLengths_iff.2 h⟩ hrefused
  · have hm : (if 0 < s.enc.nfrag.toNat then s.enc.lenOf 0 else 0#8) =
        if s.enc.nfrag = 0#8 then 0#8 else s.enc.srclen.getD 0 0#8 := by
      by_cases hn : s.enc.nfrag = 0#8
      · rw [if_pos hn, hn]; rfl
      · rw [if_neg hn, if_pos (Nat.pos_of_ne_zero fun h0 => hn (BitVec.eq_of_toNat_eq h0))]; rfl
    rw [hsome, hm]
    rfl

theorem preprocess_eq_none {s : State} {k : Nat} (h : k = 0 ∨ 16 < k ∨ ¬ EqualLengths s) :
    s.enc.preprocess k = none := by
  rcases s.enc.preprocess_cases k with ⟨-, hnone⟩ | ⟨⟨hk1, hk16, heq⟩, -⟩
  · exact hnone
  · rw [State.equalLengths_iff] at heq
    rcases h with hk | hk | hne
    · omega
    · omega
    · exact absurd heq hne

/-- There are no more generations than fragments, so their number fits its register (R31, R167). -/
theorem preprocessed_ngen (s : State) {k : Nat} (hk1 : 1 ≤ k) :
    (preprocessed s k).ngen.toNat = (s.enc.nfrag.toNat + k - 1) / k := by
  have hle : (s.enc.nfrag.toNat + k - 1) / k ≤ s.enc.nfrag.toNat := ceilDiv_le_self hk1
  change (BitVec.ofNat 8 _).toNat = _
  rw [BitVec.toNat_ofNat, Nat.mod_eq_of_lt (hle.trans_lt s.enc.nfrag.isLt)]

theorem exec_encprep_of_some {a : Byte} {s : State} {x : EncRegs} (hx : s.enc.preprocess a.toNat = some x) :
    exec (.encprep a) s = .next (okAfter (s.setEnc x) x.ngen.toNat) := by
  change execEncprep a s = _
  rw [execEncprep, hx]
  rfl

theorem exec_encprep_of_none {a : Byte} {s : State} (hx : s.enc.preprocess a.toNat = none) :
    exec (.encprep a) s = .next (errAfter s 1) := by
  change execEncprep a s = _
  rw [execEncprep, hx]
  exact congrArg _ (s.takeError_eq_errAfter .validationError)

/-- Settles O32: `Preprocess` gives the captured registers behind its two tests, and nothing otherwise. -/
theorem encprepCapturesTheStagedList : Obligations.EncprepCapturesTheStagedList := by
  intro a s
  refine ⟨hasWord_row_fields (.encprep a), fun hk1 hk16 hlen => ?captured, fun h => ?refused⟩
  case captured =>
    have hngen := preprocessed_ngen s hk1
    refine ⟨?_, hngen⟩
    rw [exec_encprep_of_some (preprocess_of_equalLengths hk1 hk16 hlen), hngen]
    rfl
  case refused => exact exec_encprep_of_none (preprocess_eq_none h)

/-! ### SADV -/

/-- An index register below its top counts up by one. -/
theorem toNat_add_one_of_ne_top {x : Byte} (hx : x ≠ 255#8) : (x + 1#8).toNat = x.toNat + 1 := by
  bv_omega

theorem exec_sadv_of_active {s : State} (hactive : s.sess.active = true) (hgen : s.sess.curGen ≠ 255#8)
    (hptr : s.enc.gen ≠ 255#8) :
    exec .sadv s =
      .next (okAfter
        ((s.setSess { s.sess with curGen := s.sess.curGen + 1#8, curFrag := 0#8 }).setEnc s.enc.advancePointer)
        (s.sess.curGen.toNat + 1)) := by
  change execSadv s = _
  rw [execSadv, if_neg (by simp [hactive, hgen, hptr]), ← toNat_add_one_of_ne_top hgen]
  rfl

theorem exec_sadv_of_refused {s : State}
    (h : s.sess.active = false ∨ s.sess.curGen = 255#8 ∨ s.enc.gen = 255#8) :
    exec .sadv s = .next (errAfter s 1) := by
  change execSadv s = _
  rw [execSadv, if_pos h]
  exact congrArg _ (s.takeError_eq_errAfter .validationError)

/-- Settles O46: the three tests, and the two registers that move. -/
theorem sadvAdvancesTheGeneration : Obligations.SadvAdvancesTheGeneration := fun _ =>
  ⟨hasWord_row_fields .sadv, exec_sadv_of_active, exec_sadv_of_refused⟩

end Sys2Proof.Machine
end

section
/-! PROOFS. The packets that ENCPRE and SFETCH code (43_encoder.md R166, R168, R170): a packet's coefficients are the next
draws, its payload is their weighted sum of the fragments, and the packets before it and the source stay as they are. -/

open Sys2Proof Sys2Proof.Certificates

namespace Sys2Proof.Machine

/-! ### One packet -/

theorem getD_map_range {α : Type} (f : Nat → α) (d : α) {n i : Nat} (hi : i < n) :
    ((List.range n).map f).getD i d = f i := by
  simp [hi]

/-- The weighted sum of R168 is the sum of the table-free products. -/
theorem weightedSum_map_byte (coeff symbol : Nat → Byte) (l : List Nat) :
    (weightedSum (l.map coeff) (l.map symbol)).byte = xorSum (l.map fun i => polyMul (coeff i) (symbol i)) := by
  induction l with
  | nil => rfl
  | cons i l ih =>
    simp only [List.map_cons, weightedSum, gfAdd_byte, gfMul_byte, ih]
    rfl

section Packet

variable (s : State) (gi j : Nat)

theorem State.payload_getD (coeff : Nat → Byte) (g : Nat) {x : Nat} (hx : x < s.enc.m.toNat) :
    (s.payload gi ((List.range g).map coeff)).getD x 0#8 =
      xorSumTo g fun i => polyMul (coeff i) (cell s .src (gi * s.enc.k.toNat + i) x) := by
  rw [State.payload, getD_map_range _ _ hx, List.length_map, List.length_range, State.column, weightedSum_map_byte]
  rfl

/-- The packet's bytes stand in its slot from the first one on (R168). -/
theorem State.cell_encodeOne {x : Nat} (hx : x < s.enc.genSize gi + s.enc.m.toNat) :
    cell (s.encodeOne gi j) .cpk j x =
      ((s.cg.drawMany (s.enc.genSize gi)).1 ++ s.payload gi (s.cg.drawMany (s.enc.genSize gi)).1).getD x 0#8 := by
  have hkey : cellKey j x = cellKey j 0 + x := (cellKey_zero_add j x).symm
  rw [cell, State.readByte_encodeOne, if_pos ⟨rfl, by omega, by omega⟩, hkey, Nat.add_sub_cancel_left]

variable {j}

theorem State.encodeOne_packetAt (hpre : j < s.enc.cpkpre.length) (hpost : j < s.enc.cpkpost.length) :
    PacketAt s (s.encodeOne gi j) gi (s.enc.genSize gi) j s.cg.state where
  vector := fun i hi => by
    rw [State.cell_encodeOne s gi j (by omega), List.getD_append _ _ _ _ (by simpa using hi), CgRegs.drawMany_eq,
      getD_map_range _ _ hi]
  payload := fun x hx => by
    rw [State.cell_encodeOne s gi j (by omega), List.getD_append_right _ _ _ _ (by simp), CgRegs.drawMany_length,
      Nat.add_sub_cancel_left, CgRegs.drawMany_eq, State.payload_getD s gi _ _ hx]
  before := by rw [State.encodeOne_enc]; simp [hpre]
  after := by rw [State.encodeOne_enc, CgRegs.drawMany_eq]; simp [hpost]

end Packet

section Transfer

variable {s u t t' : State} {gi g j : Nat} {pre : Byte}

/-- What a packet is made of: the source coded from. -/
theorem packetAt_of_source (h : PacketAt u t gi g j pre) (hk : u.enc.k = s.enc.k) (hm : u.enc.m = s.enc.m)
    (hsrc : ∀ key, u.readByte .src key = s.readByte .src key) : PacketAt s t gi g j pre where
  vector := h.vector
  payload := fun x hx => by
    rw [h.payload x (hm ▸ hx), hk]
    simp only [cell, hsrc]
  before := h.before
  after := h.after

/-- Where a packet stands: its slot, which later writes may leave alone. -/
theorem packetAt_of_slot (h : PacketAt s t gi g j pre)
    (hbytes : ∀ x < g + s.enc.m.toNat, cell t' .cpk j x = cell t .cpk j x)
    (hpre : t'.enc.cpkpre[j]? = t.enc.cpkpre[j]?) (hpost : t'.enc.cpkpost[j]? = t.enc.cpkpost[j]?) :
    PacketAt s t' gi g j pre where
  vector := fun i hi => (hbytes i (by omega)).trans (h.vector i hi)
  payload := fun x hx => (hbytes (g + x) (by omega)).trans (h.payload x hx)
  before := by rw [List.getD_eq_getElem?_getD, hpre, ← List.getD_eq_getElem?_getD, h.before]
  after := by rw [List.getD_eq_getElem?_getD, hpost, ← List.getD_eq_getElem?_getD, h.after]

end Transfer

/-! ### Packet after packet -/

/-- The keys of `n` slots from slot `j` on, each of width `w`. -/
def InSlots (j n w key : Nat) : Prop := ∃ i x, j ≤ i ∧ i < j + n ∧ x < w ∧ key = cellKey i x

theorem inRows_of_inSlots {n w key : Nat} (h : InSlots 0 n w key) : InRows n w key := by
  obtain ⟨i, x, -, hi, hx, rfl⟩ := h
  exact ⟨i, x, by omega, hx, rfl⟩

/-- A slot before the first is none of them, as long as a slot's bytes do not reach into the next (R39, R64). -/
theorem not_inSlots_of_lt {j n w i x : Nat} (hi : i < j) (hx : x < 256) : ¬ InSlots j n w (cellKey i x) := by
  rintro ⟨i', x', hi', -, -, hkey⟩
  unfold cellKey at hkey
  omega

section Many

variable (s : State) (gi j n : Nat)

theorem State.encodeOne_sameBytesBut :
    SameBytesBut .cpk (InSlots j 1 (s.enc.genSize gi + s.enc.m.toNat)) s (s.encodeOne gi j) := by
  intro sp key hout
  rw [State.readByte_encodeOne, if_neg]
  rintro ⟨hsp, hlo, hhi⟩
  refine hout ⟨hsp, j, key - cellKey j 0, le_rfl, Nat.lt_succ_self j, by omega, ?_⟩
  rw [← cellKey_zero_add, Nat.add_sub_cancel' hlo]

/-- Coding packets stores into their slots alone (R168, R170). -/
theorem State.encodeMany_sameBytesBut :
    SameBytesBut .cpk (InSlots j n (s.enc.genSize gi + s.enc.m.toNat)) s (s.encodeMany gi j n) := by
  induction n generalizing s j with
  | zero => exact fun _ _ _ => rfl
  | succ n ih =>
    intro sp key hout
    have hrest : ¬ (sp = .cpk ∧ InSlots (j + 1) n (s.enc.genSize gi + s.enc.m.toNat) key) := by
      rintro ⟨hsp, i, x, hlo, hhi, hx, hkey⟩
      exact hout ⟨hsp, i, x, by omega, by omega, hx, hkey⟩
    have hfirst : ¬ (sp = .cpk ∧ InSlots j 1 (s.enc.genSize gi + s.enc.m.toNat) key) := by
      rintro ⟨hsp, i, x, hlo, hhi, hx, hkey⟩
      exact hout ⟨hsp, i, x, hlo, by omega, hx, hkey⟩
    exact (ih (s.encodeOne gi j) (j + 1) sp key hrest).trans (s.encodeOne_sameBytesBut gi j sp key hfirst)

/-- Coding packets writes the generator states of their slots alone (R32, R168). -/
theorem State.encodeMany_states_outside {i : Nat} (hi : i < j ∨ j + n ≤ i) :
    (s.encodeMany gi j n).enc.cpkpre[i]? = s.enc.cpkpre[i]? ∧
      (s.encodeMany gi j n).enc.cpkpost[i]? = s.enc.cpkpost[i]? := by
  induction n generalizing s j with
  | zero => exact ⟨rfl, rfl⟩
  | succ n ih =>
    obtain ⟨hpre, hpost⟩ := ih (s.encodeOne gi j) (j + 1) (by omega)
    rw [State.encodeMany, hpre, hpost, State.encodeOne_enc]
    exact ⟨List.getElem?_set_ne (by omega), List.getElem?_set_ne (by omega)⟩

/-- Packet `i` draws after the `i·g` draws of the packets before it, and the packets after it leave it alone (R168,
R170). -/
theorem State.encodeMany_packetAt (hw : s.enc.genSize gi + s.enc.m.toNat ≤ 256) (hpre : j + n ≤ s.enc.cpkpre.length)
    (hpost : j + n ≤ s.enc.cpkpost.length) {i : Nat} (hi : i < n) :
    PacketAt s (s.encodeMany gi j n) gi (s.enc.genSize gi) (j + i)
      (lfsrStep^[i * s.enc.genSize gi] s.cg.state) := by
  induction n generalizing s j i with
  | zero => contradiction
  | succ n ih =>
    rw [State.encodeMany]
    cases i with
    | zero =>
      have hstates := (s.encodeOne gi j).encodeMany_states_outside gi (j + 1) n (.inl (Nat.lt_succ_self j))
      rw [Nat.add_zero, Nat.zero_mul, Function.iterate_zero_apply]
      refine packetAt_of_slot (s.encodeOne_packetAt gi (by omega) (by omega)) (fun x hx => ?_) hstates.1 hstates.2
      exact (s.encodeOne gi j).encodeMany_sameBytesBut gi (j + 1) n .cpk _
        fun h => not_inSlots_of_lt (Nat.lt_succ_self j) (by omega) h.2
    | succ i =>
      have hpacket := ih (s.encodeOne gi j) (j + 1) hw (by rw [State.encodeOne_enc, List.length_set]; omega)
        (by rw [State.encodeOne_enc, List.length_set]; omega) (Nat.lt_of_succ_lt_succ hi)
      have hstate : lfsrStep^[i * s.enc.genSize gi] (s.encodeOne gi j).cg.state =
          lfsrStep^[(i + 1) * s.enc.genSize gi] s.cg.state := by
        rw [State.encodeOne_cg, CgRegs.drawMany_eq, ← Function.iterate_add_apply, Nat.succ_mul]
      have hslot : j + 1 + i = j + (i + 1) := by omega
      rw [← hstate, ← hslot]
      refine packetAt_of_source hpacket rfl rfl fun key => ?_
      rw [State.readByte_encodeOne, if_neg (by simp)]

end Many

/-! ### What ENCPRE and SFETCH leave -/

/-- The state after a command that has coded `count` packets of generation `gi` into the slots 0, 1, … and described
them, with the session registers `x` and the answer `v` (R170, R217). -/
def State.coded (s : State) (gi count : Nat) (x : SessRegs) (v : Nat) : State :=
  okAfter
    (((s.encodeMany gi 0 count).setEnc
      ((s.encodeMany gi 0 count).enc.describe count (s.enc.genSize gi) gi)).setSess x) v

section Coded

variable (s : State) (gi count : Nat) (x : SessRegs) (v : Nat)

theorem State.coded_enc :
    (s.coded gi count x v).enc =
      { s.enc with
        cpkn := BitVec.ofNat 8 count
        cpkg := BitVec.ofNat 5 (s.enc.genSize gi)
        cpkm := s.enc.m
        cpkgen := BitVec.ofNat 8 gi
        cpkpre := (s.coded gi count x v).enc.cpkpre
        cpkpost := (s.coded gi count x v).enc.cpkpost } := by
  change (s.encodeMany gi 0 count).enc.describe .. = _
  rw [State.encodeMany_enc]
  rfl

theorem State.coded_cg :
    (s.coded gi count x v).cg =
      { s.cg with
        state := lfsrStep^[count * s.enc.genSize gi] s.cg.state
        count := BitVec.ofNat 8 (s.cg.count.toNat + count * s.enc.genSize gi) } := by
  change (s.encodeMany gi 0 count).cg = _
  rw [State.encodeMany_cg, CgRegs.drawMany_eq, BitVec.ofNat_add, BitVec.ofNat_toNat, BitVec.setWidth_eq]

/-- Coding writes CG, CPK with its bookkeeping, the session and the response, and no other register (R168, R170). -/
theorem State.coded_sameUnits :
    SameUnits { s with cg := (s.coded gi count x v).cg, enc := (s.coded gi count x v).enc, sess := x }
      (s.coded gi count x v) := by
  obtain ⟨hparams, hepoch, hinbox, -, -, hdec, hcfg, -, hfc, -⟩ := s.encodeMany_frame gi 0 count
  exact ⟨hparams, hepoch, hinbox, rfl, rfl, hdec, hcfg, rfl, hfc⟩

theorem State.coded_errlog : (s.coded gi count x v).errlog = s.errlog := s.encodeMany_errlog gi 0 count

theorem State.coded_states_beyond {j : Nat} (hj : count ≤ j) :
    (s.coded gi count x v).enc.cpkpre[j]? = s.enc.cpkpre[j]? ∧
      (s.coded gi count x v).enc.cpkpost[j]? = s.enc.cpkpost[j]? :=
  s.encodeMany_states_outside gi 0 count (.inr (by omega))

theorem State.coded_sameBytesBut :
    SameBytesBut .cpk (InRows count (s.enc.genSize gi + s.enc.m.toNat)) s (s.coded gi count x v) :=
  fun sp key hout => s.encodeMany_sameBytesBut gi 0 count sp key fun h => hout (h.imp id inRows_of_inSlots)

variable {s} {count}

theorem State.coded_packetAt (h : s.Inv) (hcount : count ≤ s.params.cMax) {j : Nat} (hj : j < count) :
    PacketAt s (s.coded gi count x v) gi (s.enc.genSize gi) j (lfsrStep^[j * s.enc.genSize gi] s.cg.state) := by
  have hw : s.enc.genSize gi + s.enc.m.toNat ≤ 256 := by
    have hg := (s.enc.genSize_le gi).trans h.encoder.k
    have hm := h.encoder.m
    have hwidth := Params.wMax_lt h.params
    unfold Params.wMax at hwidth
    omega
  have hpacket := s.encodeMany_packetAt gi 0 count hw (by rw [h.encoder.cpkpreLength]; omega)
    (by rw [h.encoder.cpkpostLength]; omega) hj
  rw [Nat.zero_add] at hpacket
  exact packetAt_of_slot hpacket (fun _ _ => rfl) rfl rfl

end Coded

end Sys2Proof.Machine
end

section
/-! PROOFS. ENCPRE and SFETCH as one operation (43_encoder.md R170, 45_session.md R217): the validation tests, then the
cycle test, then the packets. A plan holds what differs between the two, so that the operation is examined once. -/

open Sys2Proof Sys2Proof.Certificates

namespace Sys2Proof.Machine

/-! ### One operation for both commands -/

/-- What a coding command is about to do: whether its validation tests refuse it, the generation, the number of packets,
the session registers it leaves in place of the old ones, and its answer. -/
structure CodingPlan where
  refused : Bool
  gi : Nat
  count : Nat
  session : SessRegs → SessRegs
  value : Nat

/-- ENCPRE's plan (R170). -/
def encprePlan (a b : Byte) (s : State) : CodingPlan where
  refused := s.enc.valid = false ∨ s.enc.ngen.toNat ≤ a.toNat ∨ s.params.cMax < s.enc.genSize a.toNat + b.toNat
  gi := a.toNat
  count := s.enc.genSize a.toNat + b.toNat
  session := id
  value := s.enc.genSize a.toNat + b.toNat

/-- SFETCH's plan (R217). -/
def sfetchPlan (s : State) : CodingPlan where
  refused := s.sess.active = false ∨ s.sess.genComplete = true ∨ s.enc.valid = false ∨
    s.enc.ngen.toNat ≤ s.enc.gen.toNat ∨ s.sess.curFrag = 255#8
  gi := s.enc.gen.toNat
  count := 1
  session := fun x => x.afterFetch s.cg.state (lfsrStep^[s.enc.genSize s.enc.gen.toNat] s.cg.state)
  value := (s.sess.curFrag + 1#8).toNat

/-- The operation: the plan's refusal, then the cycle test, then the packets (R170, R217). -/
def State.codePackets (s : State) (p : CodingPlan) : State :=
  if p.refused = true then errAfter s 1
  else if 255 < s.cg.count.toNat + p.count * s.enc.genSize p.gi then errAfter s 2
  else s.coded p.gi p.count (p.session s.sess) p.value

section Outcome

variable {s : State} {p : CodingPlan}

theorem State.codePackets_of_refused (h : p.refused = true) : s.codePackets p = errAfter s 1 := if_pos h

variable (h : p.refused = false)
include h

theorem State.codePackets_of_exhausted (hcycle : 255 < s.cg.count.toNat + p.count * s.enc.genSize p.gi) :
    s.codePackets p = errAfter s 2 := by
  rw [State.codePackets, if_neg (Bool.eq_false_iff.1 h), if_pos hcycle]

theorem State.codePackets_of_fits (hcycle : s.cg.count.toNat + p.count * s.enc.genSize p.gi ≤ 255) :
    s.codePackets p = s.coded p.gi p.count (p.session s.sess) p.value := by
  rw [State.codePackets, if_neg (Bool.eq_false_iff.1 h), if_neg (not_lt.2 hcycle)]

end Outcome

theorem exec_encpre_eq (a b : Byte) (s : State) :
    exec (.encpre a b) s = .next (s.codePackets (encprePlan a b s)) := by
  have hcoded (gi count v : Nat) :
      s.coded gi count s.sess v = ((s.encodeMany gi 0 count).setEnc
        ((s.encodeMany gi 0 count).enc.describe count (s.enc.genSize gi) gi)).answer v := by
    rw [← s.encodeMany_sess gi 0 count]
    rfl
  change execEncpre a b s = _
  simp only [execEncpre, State.codePackets, encprePlan, decide_eq_true_eq, id, hcoded]
  split
  · exact congrArg _ (s.takeError_eq_errAfter .validationError)
  · split
    · exact congrArg _ (s.takeError_eq_errAfter .cycleExhausted)
    · rfl

theorem exec_sfetch_eq (s : State) : exec .sfetch s = .next (s.codePackets (sfetchPlan s)) := by
  have hpost : (s.encodeOne s.enc.gen.toNat 0).cg.state =
      lfsrStep^[s.enc.genSize s.enc.gen.toNat] s.cg.state := by
    rw [State.encodeOne_cg, CgRegs.drawMany_eq]
  change execSfetch s = _
  simp only [execSfetch, State.codePackets, sfetchPlan, decide_eq_true_eq, Nat.one_mul, hpost]
  split
  · exact congrArg _ (s.takeError_eq_errAfter .validationError)
  · split
    · exact congrArg _ (s.takeError_eq_errAfter .cycleExhausted)
    · rfl

/-! ### ENCPRE -/

theorem encprePlan_refused_eq_false_iff (a b : Byte) (s : State) :
    (encprePlan a b s).refused = false ↔
      s.enc.valid = true ∧ a.toNat < s.enc.ngen.toNat ∧ s.enc.genSize a.toNat + b.toNat ≤ s.params.cMax := by
  simp [encprePlan]

/-- The bookkeeping names the generation by its index, which is the operand (R32, R170). -/
theorem coded_encpre_sameUnits (s : State) (a : Byte) (count v : Nat) :
    SameUnits
      { s with
        cg :=
          { s.cg with
            state := lfsrStep^[count * s.enc.genSize a.toNat] s.cg.state
            count := BitVec.ofNat 8 (s.cg.count.toNat + count * s.enc.genSize a.toNat) }
        enc :=
          { s.enc with
            cpkn := BitVec.ofNat 8 count
            cpkg := BitVec.ofNat 5 (s.enc.genSize a.toNat)
            cpkm := s.enc.m
            cpkgen := a
            cpkpre := (s.coded a.toNat count s.sess v).enc.cpkpre
            cpkpost := (s.coded a.toNat count s.sess v).enc.cpkpost } }
      (s.coded a.toNat count s.sess v) := by
  have hunits := s.coded_sameUnits a.toNat count s.sess v
  have hindex : BitVec.ofNat 8 a.toNat = a := by rw [BitVec.ofNat_toNat, BitVec.setWidth_eq]
  have henc := s.coded_enc a.toNat count s.sess v
  rw [hindex] at henc
  exact { hunits with cg := s.coded_cg a.toNat count s.sess v, enc := henc }

/-- Settles O33: ENCPRE's plan passes or fails the tests as the statement says, and its packets are coded in slot
order. -/
theorem encpreCodesTheGeneration : Obligations.EncpreCodesTheGeneration := by
  intro a b s
  refine ⟨hasWord_row_fields (.encpre a b), fun hinv hvalid hgen hroom hcycle => ?coded, fun h => ?refused,
    fun hvalid hgen hroom hcycle => ?exhausted⟩
  case coded =>
    have hpass := (encprePlan_refused_eq_false_iff a b s).2 ⟨hvalid, hgen, hroom⟩
    refine ⟨_, (exec_encpre_eq a b s).trans (congrArg _ (State.codePackets_of_fits hpass hcycle)), rfl,
      fun j hj => State.coded_packetAt _ _ _ hinv hroom hj, fun j hj => s.coded_states_beyond _ _ _ _ hj,
      s.coded_errlog .., coded_encpre_sameUnits .., s.coded_sameBytesBut _ _ _ _⟩
  case refused =>
    rw [exec_encpre_eq, State.codePackets_of_refused (decide_eq_true h)]
  case exhausted =>
    have hpass := (encprePlan_refused_eq_false_iff a b s).2 ⟨hvalid, hgen, hroom⟩
    rw [exec_encpre_eq, State.codePackets_of_exhausted hpass hcycle]

end Sys2Proof.Machine
end

section
/-! PROOFS. Encoding is reproducible (43_encoder.md R171): two units of one source and one generator state make the same
plan of the same coding command, so they answer alike, code the same packets, and are again two such units. -/

open Sys2Proof Sys2Proof.Certificates

namespace Sys2Proof.Machine

/-! ### The same source -/

section Source

variable {s t u : State}

theorem sameSource_symm (h : SameSource s t) : SameSource t s := by
  obtain ⟨hvalid, hk, hm, hn⟩ := h.captured
  exact ⟨h.params.symm, ⟨hvalid.symm, hk.symm, hm.symm, hn.symm⟩,
    fun f hf x hx => (h.bytes f (hn ▸ hf) x (hm ▸ hx)).symm⟩

theorem sameSource_trans (h : SameSource s t) (h' : SameSource t u) : SameSource s u := by
  obtain ⟨hvalid, hk, hm, hn⟩ := h.captured
  obtain ⟨hvalid', hk', hm', hn'⟩ := h'.captured
  exact ⟨h.params.trans h'.params, ⟨hvalid.trans hvalid', hk.trans hk', hm.trans hm', hn.trans hn'⟩,
    fun f hf x hx => (h.bytes f hf x hx).trans (h'.bytes f (hn ▸ hf) x (hm ▸ hx))⟩

theorem genSize_of_sameSource (h : SameSource s t) (gi : Nat) : s.enc.genSize gi = t.enc.genSize gi := by
  obtain ⟨-, hk, -, hn⟩ := h.captured
  rw [EncRegs.genSize, hk, hn, EncRegs.genSize]

/-- Two packets of one generation from one generator state have the same bytes: what the vector and the payload are made
of is the same (R168, R171). -/
theorem packetAt_bytes_eq {s' t' : State} {gi j : Nat} {pre : Byte} (h : SameSource s t)
    (hs : PacketAt s s' gi (s.enc.genSize gi) j pre) (ht : PacketAt t t' gi (s.enc.genSize gi) j pre) {i : Nat}
    (hi : i < s.enc.genSize gi + s.enc.m.toNat) : cell s' .cpk j i = cell t' .cpk j i := by
  obtain ⟨-, hk, hm, -⟩ := h.captured
  rcases Nat.lt_or_ge i (s.enc.genSize gi) with hvector | hpayload
  · rw [hs.vector i hvector, ht.vector i hvector]
  · obtain ⟨x, rfl⟩ := Nat.exists_eq_add_of_le hpayload
    have hx : x < s.enc.m.toNat := by omega
    rw [hs.payload x hx, ht.payload x (hm ▸ hx), xorSumTo, xorSumTo]
    refine congrArg xorSum (List.map_congr_left fun f hf => ?_)
    have hf : gi * s.enc.k.toNat + f < s.enc.n.toNat := by
      have hlt := List.mem_range.1 hf
      unfold EncRegs.genSize at hlt
      omega
    rw [h.bytes _ hf x hx, hk]

end Source

/-- Coding packets leaves the source as it is: SRC and the captured registers are not written (R168). -/
theorem State.sameSource_coded (s : State) (gi count : Nat) (x : SessRegs) (v : Nat) :
    SameSource s (s.coded gi count x v) := by
  have henc := s.coded_enc gi count x v
  refine ⟨(s.coded_sameUnits gi count x v).params.symm, by rw [henc]; exact ⟨rfl, rfl, rfl, rfl⟩, fun f _ y _ => ?_⟩
  exact (s.coded_sameBytesBut gi count x v .src _ (by simp)).symm

/-! ### What the bookkeeping says of the packets -/

theorem getElem?_eq_of_getD_eq {α : Type} {l l' : List α} {d : α} {j : Nat} (hl : j < l.length) (hl' : j < l'.length)
    (h : l.getD j d = l'.getD j d) : l[j]? = l'[j]? := by
  rw [List.getD_eq_getElem _ _ hl, List.getD_eq_getElem _ _ hl'] at h
  rw [List.getElem?_eq_getElem hl, List.getElem?_eq_getElem hl', h]

section Described

variable {s : State} (h : s.Inv) {gi count : Nat} (hcount : count ≤ s.params.cMax) (x : SessRegs) (v : Nat)
include h hcount

/-- The number of packets and their width fit CPKN, CPKG and CPKM (R32). -/
theorem State.coded_counts :
    (s.coded gi count x v).enc.cpkn.toNat = count ∧
      (s.coded gi count x v).enc.cpkg.toNat + (s.coded gi count x v).enc.cpkm.toNat =
        s.enc.genSize gi + s.enc.m.toNat := by
  obtain ⟨-, -, ⟨-, hcMax⟩, -⟩ := h.params
  have hg : s.enc.genSize gi ≤ 16 := (s.enc.genSize_le gi).trans h.encoder.k
  rw [State.coded_enc]
  simp only [BitVec.toNat_ofNat]
  omega

/-- Every packet's slot has its entries in CPKPRE and CPKPOST (R32). -/
theorem State.lt_coded_states_length {j : Nat} (hj : j < count) :
    j < (s.coded gi count x v).enc.cpkpre.length ∧ j < (s.coded gi count x v).enc.cpkpost.length := by
  obtain ⟨-, -, -, -, -, -, -, -, -, -, hpre, hpost, -⟩ := s.encodeMany_frame gi 0 count
  have hpre' : (s.coded gi count x v).enc.cpkpre.length = s.params.cMax := hpre.trans h.encoder.cpkpreLength
  have hpost' : (s.coded gi count x v).enc.cpkpost.length = s.params.cMax := hpost.trans h.encoder.cpkpostLength
  omega

end Described

/-! ### Two units that code alike -/

/-- Two units that code alike (R171): they hold the same source and the same generator state and count, and, where
fetches are among the commands, the same session and generation pointer, which R217 reads. -/
structure CodeAlike (fetches : Prop) (s t : State) : Prop where
  inv : s.Inv ∧ t.Inv
  source : SameSource s t
  stream : s.cg.state = t.cg.state ∧ s.cg.count = t.cg.count
  session : fetches → s.sess = t.sess ∧ s.enc.gen = t.enc.gen

/-- What R171 says of two units after a command: the same answer and, if it is a success, the same packets. -/
structure AnswerAlike (s t : State) : Prop where
  response : s.response = t.response
  packets : (∃ v, s.response = some (okWord v)) → SamePackets s t

section Alike

variable {fetches : Prop} {s t : State}

/-- ENC_NGEN follows from the captured registers once they are valid (R31, R41). -/
theorem CodeAlike.ngen (h : CodeAlike fetches s t) (hvalid : s.enc.valid = true) : s.enc.ngen = t.enc.ngen := by
  obtain ⟨hv, hk, -, hn⟩ := h.source.captured
  obtain ⟨-, hs⟩ := h.inv.1.encoder.valid hvalid
  obtain ⟨-, ht⟩ := h.inv.2.encoder.valid (hv ▸ hvalid)
  exact BitVec.eq_of_toNat_eq (by rw [hs, ht, hk, hn])

/-- Not preprocessed, ENCPRE is refused in both units, whatever ENC_NGEN holds; else ENC_NGEN is the same (R170). -/
theorem CodeAlike.encprePlan_eq (h : CodeAlike fetches s t) (a b : Byte) : encprePlan a b s = encprePlan a b t := by
  have hvalid := h.source.captured.1
  cases hv : s.enc.valid with
  | false => simp [encprePlan, genSize_of_sameSource h.source, ← hvalid, hv]
  | true => simp [encprePlan, genSize_of_sameSource h.source, ← hvalid, hv, h.ngen hv, h.source.params]

/-- SFETCH reads the session, the pointer and the generator state besides (R217). -/
theorem CodeAlike.sfetchPlan_eq (h : CodeAlike fetches s t) (hf : fetches) : sfetchPlan s = sfetchPlan t := by
  obtain ⟨hsess, hgen⟩ := h.session hf
  have hvalid := h.source.captured.1
  cases hv : s.enc.valid with
  | false => simp [sfetchPlan, genSize_of_sameSource h.source, ← hvalid, hv, hsess, hgen, h.stream.1]
  | true => simp [sfetchPlan, genSize_of_sameSource h.source, ← hvalid, hv, h.ngen hv, hsess, hgen, h.stream.1]

/-- A coding command is one plan in both units, and its packets have slots in CPK (R170, R217). -/
theorem CodeAlike.exists_plan (h : CodeAlike fetches s t) {i : Instr} (hi : IsCoding i) (hf : i = .sfetch → fetches) :
    ∃ p : CodingPlan, exec i s = .next (s.codePackets p) ∧ exec i t = .next (t.codePackets p) ∧
      (p.refused = false → p.count ≤ s.params.cMax) := by
  rcases hi with ⟨a, b, rfl⟩ | rfl
  · refine ⟨encprePlan a b s, exec_encpre_eq a b s, ?_, fun hpass => ?_⟩
    · rw [h.encprePlan_eq, exec_encpre_eq]
    · obtain ⟨-, -, hroom⟩ := (encprePlan_refused_eq_false_iff a b s).1 hpass
      exact hroom
  · obtain ⟨-, -, ⟨hroom, -⟩, -⟩ := h.inv.1.params
    refine ⟨sfetchPlan s, exec_sfetch_eq s, ?_, fun _ => hroom⟩
    rw [h.sfetchPlan_eq (hf rfl), exec_sfetch_eq]

/-- The same packets are coded from the same source and stream (R168, R171). -/
theorem CodeAlike.samePackets (h : CodeAlike fetches s t) {gi count : Nat} (hcount : count ≤ s.params.cMax)
    (x y : SessRegs) (v : Nat) : SamePackets (s.coded gi count x v) (t.coded gi count y v) := by
  obtain ⟨hsinv, htinv⟩ := h.inv
  obtain ⟨-, -, hm, -⟩ := h.source.captured
  have hsize := genSize_of_sameSource h.source gi
  have hcount' : count ≤ t.params.cMax := h.source.params ▸ hcount
  obtain ⟨hcpkn, hwidth⟩ := State.coded_counts hsinv hcount x v (gi := gi)
  have hs {j : Nat} (hj : j < count) := State.coded_packetAt gi x v hsinv hcount hj
  have ht {j : Nat} (hj : j < count) := State.coded_packetAt gi y v htinv hcount' hj
  rw [← h.stream.1, ← hsize] at ht
  refine { shape := ?shape, states := fun j hj => ?states, bytes := fun j hj i hi => ?bytes }
  case shape =>
    rw [State.coded_enc s, State.coded_enc t, hsize, hm]
    exact ⟨rfl, rfl, rfl, rfl⟩
  case states =>
    rw [hcpkn] at hj
    obtain ⟨hspre, hspost⟩ := State.lt_coded_states_length hsinv hcount x v (gi := gi) hj
    obtain ⟨htpre, htpost⟩ := State.lt_coded_states_length htinv hcount' y v (gi := gi) hj
    exact ⟨getElem?_eq_of_getD_eq hspre htpre ((hs hj).before.trans (ht hj).before.symm),
      getElem?_eq_of_getD_eq hspost htpost ((hs hj).after.trans (ht hj).after.symm)⟩
  case bytes =>
    rw [hcpkn] at hj
    rw [hwidth] at hi
    exact packetAt_bytes_eq h.source (hs hj) (ht hj) hi

/-! ### One command, and a sequence -/

/-- A refused command leaves two such units, with one error (R171, R272). -/
theorem CodeAlike.raise (h : CodeAlike fetches s t) (e : ErrorKind) :
    CodeAlike fetches (errAfter s e.code) (errAfter t e.code) ∧
      AnswerAlike (errAfter s e.code) (errAfter t e.code) := by
  rw [← State.takeError_eq_errAfter, ← State.takeError_eq_errAfter]
  obtain ⟨⟨hsinv, htinv⟩, ⟨hparams, hcaptured, hbytes⟩, hstream, hsession⟩ := h
  refine ⟨⟨⟨hsinv.takeError e, htinv.takeError e⟩, ⟨hparams, hcaptured, hbytes⟩, hstream, hsession⟩, rfl, ?_⟩
  rintro ⟨v, hok⟩
  exact absurd hok (s.takeError_response_ne_okWord e v)

/-- A plan carried out in two such units, whether it is refused or not (R171). -/
theorem CodeAlike.codePackets (h : CodeAlike fetches s t) {p : CodingPlan}
    (hcount : p.refused = false → p.count ≤ s.params.cMax) (hinv : (s.codePackets p).Inv ∧ (t.codePackets p).Inv) :
    CodeAlike fetches (s.codePackets p) (t.codePackets p) ∧ AnswerAlike (s.codePackets p) (t.codePackets p) := by
  have hsize := genSize_of_sameSource h.source p.gi
  obtain ⟨hstate, hdrawn⟩ := h.stream
  cases hp : p.refused with
  | true =>
    rw [State.codePackets_of_refused hp, State.codePackets_of_refused hp]
    exact h.raise .validationError
  | false =>
    rcases Nat.lt_or_ge 255 (s.cg.count.toNat + p.count * s.enc.genSize p.gi) with hcycle | hcycle
    · rw [State.codePackets_of_exhausted hp hcycle, State.codePackets_of_exhausted hp (hdrawn ▸ hsize ▸ hcycle)]
      exact h.raise .cycleExhausted
    · rw [State.codePackets_of_fits hp hcycle, State.codePackets_of_fits hp (hdrawn ▸ hsize ▸ hcycle)] at hinv ⊢
      refine ⟨⟨hinv, ?source, ?stream, fun hf => ?session⟩, rfl, fun _ => h.samePackets (hcount hp) _ _ _⟩
      case source =>
        exact sameSource_trans (sameSource_symm (s.sameSource_coded ..))
          (sameSource_trans h.source (t.sameSource_coded ..))
      case stream =>
        rw [State.coded_cg, State.coded_cg, hstate, hdrawn, hsize]
        exact ⟨rfl, rfl⟩
      case session =>
        obtain ⟨hsess, hgen⟩ := h.session hf
        rw [State.coded_enc s, State.coded_enc t]
        exact ⟨congrArg p.session hsess, hgen⟩

theorem CodeAlike.step (h : CodeAlike fetches s t) {i : Instr} (hi : IsCoding i) (hf : i = .sfetch → fetches) :
    CodeAlike fetches (after i s) (after i t) ∧ AnswerAlike (after i s) (after i t) := by
  obtain ⟨p, hs, ht, hcount⟩ := h.exists_plan hi hf
  rw [after_eq_of_exec hs, after_eq_of_exec ht]
  exact h.codePackets hcount ⟨exec_inv h.inv.1 hs, exec_inv h.inv.2 ht⟩

theorem CodeAlike.run (h : CodeAlike fetches s t) {is : List Instr} (hcoding : ∀ i ∈ is, IsCoding i)
    (hf : .sfetch ∈ is → fetches) : CodeAlike fetches (afterAll is s) (afterAll is t) := by
  induction is generalizing s t with
  | nil => exact h
  | cons i is ih =>
    have hnext := (h.step (hcoding i List.mem_cons_self) fun hi => hf (hi ▸ List.mem_cons_self)).1
    exact ih hnext (fun i hi => hcoding i (List.mem_cons_of_mem _ hi)) fun hi => hf (List.mem_cons_of_mem _ hi)

theorem afterAll_concat (is : List Instr) (i : Instr) (s : State) :
    afterAll (is ++ [i]) s = after i (afterAll is s) :=
  List.foldl_append ..

/-- The last command of a sequence runs in two such units. -/
theorem CodeAlike.answers (h : CodeAlike fetches s t) {is : List Instr} (hcoding : ∀ i ∈ is, IsCoding i)
    (hf : .sfetch ∈ is → fetches) (hne : is ≠ []) :
    AnswerAlike (afterAll is s) (afterAll is t) := by
  obtain ⟨init, last, rfl⟩ := (List.eq_nil_or_concat' is).resolve_left hne
  have hinit := h.run (fun i hi => hcoding i (List.mem_append_left _ hi)) fun hi => hf (List.mem_append_left _ hi)
  have hlast : last ∈ init ++ [last] := List.mem_append_right _ List.mem_cons_self
  rw [afterAll_concat, afterAll_concat]
  exact (hinit.step (hcoding last hlast) fun hi => hf (hi ▸ hlast)).2

end Alike

/-! ### The same start -/

theorem exec_restart {a : Byte} {r : Instr} {s u : State} (h : RestartsFrom a r s) (hu : exec r s = .next u) :
    u = okAfter (s.setCg (.start a)) 0 := by
  rcases h with rfl | ⟨rfl, rfl⟩
  · exact Host.Outcome.next.inj (hu.symm.trans (exec_lfseed a s))
  · exact Host.Outcome.next.inj (hu.symm.trans (exec_lfreset s))

/-- Settles O34: either start makes two units that code alike, and coding commands keep them so. -/
theorem encodingIsReproducible : Obligations.EncodingIsReproducible := by
  intro is s₁ s₂ u₁ u₂ hinv₁ hinv₂ hsource hcoding hne hsession hstart
  have halike : CodeAlike (.sfetch ∈ is) u₁ u₂ := by
    rcases hstart with ⟨rfl, rfl, hstream⟩ | ⟨a, r₁, r₂, hr₁, hr₂, hu₁, hu₂⟩
    · exact ⟨⟨hinv₁, hinv₂⟩, hsource, hstream, hsession⟩
    · have hinv : u₁.Inv ∧ u₂.Inv := ⟨exec_inv hinv₁ hu₁, exec_inv hinv₂ hu₂⟩
      obtain rfl := exec_restart hr₁ hu₁
      obtain rfl := exec_restart hr₂ hu₂
      exact ⟨hinv, ⟨hsource.params, hsource.captured, hsource.bytes⟩, ⟨rfl, rfl⟩, hsession⟩
  obtain ⟨hstate, hcount⟩ := (halike.run hcoding id).stream
  obtain ⟨hresponse, hpackets⟩ := halike.answers hcoding id hne
  exact ⟨hresponse, hstate, hcount, hpackets⟩

end Sys2Proof.Machine
end

section
/-! PROOFS. The classification of R190: a row is successful when its vector is a unit vector, redundant when it is
zero, and never both; so the innovative rows of R192 are the successful ones. -/

open Sys2Proof Sys2Proof.Certificates

namespace Sys2Proof.Machine

/-! ### One row -/

/-- The first `k` entries of a row are the unit vector with its 1 at `p` (R190). -/
def UnitRow (k : Nat) (row : Row) (p : Nat) : Prop :=
  p < k ∧ ∀ i < k, entry row i = if i = p then GF.one else GF.zero

/-- The first `k` entries of a row are zero (R190). -/
def ZeroRow (k : Nat) (row : Row) : Prop := ∀ i < k, entry row i = GF.zero

section Classify

variable {k : Nat} {row : Row} {p q : Nat}

theorem UnitRow.entry_ne_zero_iff (h : UnitRow k row p) {i : Nat} (hi : i < k) : entry row i ≠ GF.zero ↔ i = p := by
  rw [h.2 i hi]
  split <;> simp_all

theorem UnitRow.unique (hp : UnitRow k row p) (hq : UnitRow k row q) : p = q :=
  (hq.entry_ne_zero_iff hp.1).1 ((hp.entry_ne_zero_iff hp.1).2 rfl)

theorem UnitRow.not_zeroRow (hp : UnitRow k row p) : ¬ ZeroRow k row :=
  fun hzero => (hp.entry_ne_zero_iff hp.1).2 rfl (hzero p hp.1)

/-- One non-zero entry among the first `k`, and where it is. -/
theorem filter_entry_eq_singleton_iff :
    (List.range k).filter (fun i => entry row i != GF.zero) = [p] ↔
      p < k ∧ ∀ i < k, entry row i ≠ GF.zero ↔ i = p := by
  constructor
  · intro h
    have hmem (i : Nat) : i < k ∧ entry row i ≠ GF.zero ↔ i = p := by
      rw [← List.mem_singleton, ← h, List.mem_filter, List.mem_range, bne_iff_ne]
    exact ⟨((hmem p).2 rfl).1, fun i hi => ⟨fun hne => (hmem i).1 ⟨hi, hne⟩, fun hp => ((hmem i).2 hp).2⟩⟩
  · rintro ⟨hp, h⟩
    refine List.perm_singleton.1
      ((List.perm_ext_iff_of_nodup (List.nodup_range.filter _) (List.nodup_singleton p)).2 fun i => ?_)
    rw [List.mem_singleton, List.mem_filter, List.mem_range, bne_iff_ne]
    exact ⟨fun hi => (h i hi.1).1 hi.2, fun hi => ⟨hi ▸ hp, (h i (hi ▸ hp)).2 hi⟩⟩

/-- What the classification can answer: one case for each class of R190. -/
theorem classifyRow_cases (k : Nat) (row : Row) :
    (∃ p, UnitRow k row p ∧ classifyRow k row = { succ := true, red := false, piv := p }) ∨
      (ZeroRow k row ∧ classifyRow k row = { succ := false, red := true, piv := 0 }) ∨
      ((∀ p, ¬ UnitRow k row p) ∧ ¬ ZeroRow k row ∧
        classifyRow k row = { succ := false, red := false, piv := 0 }) := by
  unfold classifyRow
  split
  case h_1 hnil =>
    refine .inr (.inl ⟨fun i hi => ?_, rfl⟩)
    simpa using List.filter_eq_nil_iff.1 hnil i (List.mem_range.2 hi)
  case h_2 p hsingle =>
    obtain ⟨hp, hnonzero⟩ := filter_entry_eq_singleton_iff.1 hsingle
    split
    · next hone =>
      refine .inl ⟨p, ⟨hp, fun i hi => ?_⟩, rfl⟩
      split
      · next hi => rw [hi, hone]
      · next hne => exact not_not.1 fun h => hne ((hnonzero i hi).1 h)
    · next hother =>
      refine .inr (.inr ⟨fun q hq => hother ?_, fun hzero => (hnonzero p hp).2 rfl (hzero p hp), rfl⟩)
      obtain rfl := (hnonzero q hq.1).1 ((hq.entry_ne_zero_iff hq.1).2 rfl)
      rw [hq.2 q hq.1, if_pos rfl]
  case h_3 hnil hsingle =>
    refine .inr (.inr ⟨fun q hq => hsingle q ?_, fun hzero => hnil ?_, rfl⟩)
    · exact filter_entry_eq_singleton_iff.2 ⟨hq.1, fun i hi => hq.entry_ne_zero_iff hi⟩
    · exact List.filter_eq_nil_iff.2 fun i hi => by simp [hzero i (List.mem_range.1 hi)]

theorem classifyRow_succ_iff : (classifyRow k row).succ = true ↔ ∃ p, UnitRow k row p := by
  rcases classifyRow_cases k row with ⟨p, hp, hclass⟩ | ⟨hzero, hclass⟩ | ⟨hnone, -, hclass⟩ <;> rw [hclass]
  · exact ⟨fun _ => ⟨p, hp⟩, fun _ => rfl⟩
  · exact ⟨nofun, fun ⟨q, hq⟩ => absurd hzero hq.not_zeroRow⟩
  · exact ⟨nofun, fun ⟨q, hq⟩ => absurd hq (hnone q)⟩

theorem classifyRow_red_iff : (classifyRow k row).red = true ↔ ZeroRow k row := by
  rcases classifyRow_cases k row with ⟨p, hp, hclass⟩ | ⟨hzero, hclass⟩ | ⟨-, hnonzero, hclass⟩ <;> rw [hclass]
  · exact ⟨nofun, fun hzero => absurd hzero hp.not_zeroRow⟩
  · exact ⟨fun _ => hzero, fun _ => rfl⟩
  · exact ⟨nofun, fun hzero => absurd hzero hnonzero⟩

theorem unitRow_classifyRow_piv (h : (classifyRow k row).succ = true) : UnitRow k row (classifyRow k row).piv := by
  rcases classifyRow_cases k row with ⟨p, hp, hclass⟩ | ⟨-, hclass⟩ | ⟨-, -, hclass⟩ <;> rw [hclass] at h ⊢
  · exact hp
  · contradiction
  · contradiction

theorem classifyRow_piv_of_not_succ (h : (classifyRow k row).succ = false) : (classifyRow k row).piv = 0 := by
  rcases classifyRow_cases k row with ⟨p, -, hclass⟩ | ⟨-, hclass⟩ | ⟨-, -, hclass⟩ <;> rw [hclass] at h ⊢
  contradiction

end Classify

/-! ### All rows -/

/-- Row `r` of the reduced matrix. -/
def State.reducedRow (s : State) (r : Nat) : Row := (reduce s.dec.k.toNat s.accumulated).1.getD r []

/-- The class of row `r` of the reduced matrix. -/
def State.classOf (s : State) (r : Nat) : RowClass := classifyRow s.dec.k.toNat (s.reducedRow r)

theorem State.classes_eq_map (s : State) : s.classes = (List.range s.dec.rows.toNat).map s.classOf := by
  refine List.ext_getElem (by simp) fun r hr _ => ?_
  rw [State.classes, List.length_map] at hr
  simp [State.classes, State.classOf, State.reducedRow, hr]

theorem innovative_map_range (n : Nat) (f : Nat → RowClass) :
    innovative ((List.range n).map f) = (List.range n).filter fun r => (f r).succ && !(f r).red := by
  rw [innovative, List.length_map, List.length_range]
  refine List.filter_congr fun r hr => ?_
  rw [List.getElem?_map, List.getElem?_range (List.mem_range.1 hr)]
  rfl

/-- A successful row is not redundant, so the innovative rows are as many as the successful ones (R190, R192). -/
theorem State.innovative_classes_length (s : State) :
    (innovative s.classes).length = s.classes.countP (·.succ) := by
  rw [s.classes_eq_map, innovative_map_range, ← List.countP_eq_length_filter, List.countP_map]
  refine List.countP_congr fun r _ => ?_
  have hexclusive : ((s.classOf r).succ && (s.classOf r).red) = false := classifyRow_exclusive ..
  cases hsucc : (s.classOf r).succ <;> simp_all

end Sys2Proof.Machine
end

section
/-! PROOFS. The decoder's commands (44_decoder.md R186, R191, R192): DECCFG's shape, and DECRUN and DECGEN as one
operation, which differ in the rows that they list and in nothing else. -/

open Sys2Proof Sys2Proof.Certificates

namespace Sys2Proof.Machine

/-! ### DECCFG -/

theorem exec_deccfg_of_shape {a b : Byte} {s : State} (ha : 1 ≤ a.toNat) (ha16 : a.toNat ≤ 16)
    (hb : b.toNat ≤ s.params.mMax) :
    exec (.deccfg a b) s =
      .next (okAfter
        (s.setDec
          { s.dec with
            k := a.setWidth 5, m := b, rows := 0#8, resRows := 0#8, rank := 0#5, nsucc := 0#8, nred := 0#8,
            nsel := 0#8 }) 0) := by
  change execDeccfg a b s = _
  rw [execDeccfg, if_neg (by unfold Config.kMax; omega), BitVec.ofNat_toNat]
  rfl

theorem exec_deccfg_of_refused {a b : Byte} {s : State}
    (h : a = 0#8 ∨ 16 < a.toNat ∨ s.params.mMax < b.toNat) : exec (.deccfg a b) s = .next (errAfter s 1) := by
  have hrefused : a.toNat = 0 ∨ Config.kMax < a.toNat ∨ s.params.mMax < b.toNat := h.imp_left (congrArg BitVec.toNat)
  change execDeccfg a b s = _
  rw [execDeccfg, if_pos hrefused]
  exact congrArg _ (s.takeError_eq_errAfter .validationError)

/-- Settles O35: the three tests of the operands, and a generation size of at most 16 fits DEC_K. -/
theorem deccfgSetsTheShape : Obligations.DeccfgSetsTheShape := by
  intro a b s
  refine ⟨hasWord_row_fields (.deccfg a b), fun ha ha16 hb => ⟨exec_deccfg_of_shape ha ha16 hb, ?fits⟩,
    exec_deccfg_of_refused⟩
  case fits => rw [BitVec.toNat_setWidth, Nat.mod_eq_of_lt (by omega)]

/-! ### One operation for DECRUN and DECGEN -/

/-- The state after a decoding command that lists the rows `sel` as innovative: it answers the number of successful
rows (R191, R192). -/
def State.decoded (s : State) (sel : List Nat) : State :=
  okAfter (s.reduceAndClassify.setDec (s.reduceAndClassify.dec.withSelection sel)) s.reduceAndClassify.dec.nsucc.toNat

theorem exec_decrun_of_configured {s : State} (hk : s.dec.k ≠ 0#5) : exec .decrun s = .next (s.decoded []) := by
  change execDecrun s = _
  rw [execDecrun, if_neg hk]
  rfl

theorem exec_decgen_of_configured {s : State} (hk : s.dec.k ≠ 0#5) :
    exec .decgen s = .next (s.decoded (innovative s.classes)) := by
  have hanswer : BitVec.ofNat 8 (innovative s.classes).length = s.reduceAndClassify.dec.nsucc :=
    congrArg (BitVec.ofNat 8) s.innovative_classes_length
  change execDecgen s = _
  rw [execDecgen, if_neg hk, State.decoded, ← hanswer]
  rfl

theorem exec_decrun_of_unconfigured {s : State} (hk : s.dec.k = 0#5) : exec .decrun s = .next (errAfter s 1) := by
  change execDecrun s = _
  rw [execDecrun, if_pos hk]
  exact congrArg _ (s.takeError_eq_errAfter .validationError)

theorem exec_decgen_of_unconfigured {s : State} (hk : s.dec.k = 0#5) : exec .decgen s = .next (errAfter s 1) := by
  change execDecgen s = _
  rw [execDecgen, if_pos hk]
  exact congrArg _ (s.takeError_eq_errAfter .validationError)

/-- What a decoding command lists, as a function of the classes alone (R191, R192). -/
theorem exists_selection {i : Instr} (hi : i = .decrun ∨ i = .decgen) :
    ∃ sel : List RowClass → List Nat, (∀ cs, (sel cs).length ≤ cs.length) ∧
      ∀ s : State, s.dec.k ≠ 0#5 → exec i s = .next (s.decoded (sel s.classes)) := by
  rcases hi with rfl | rfl
  · exact ⟨fun _ => [], fun _ => Nat.zero_le _, fun _ hk => exec_decrun_of_configured hk⟩
  · exact ⟨innovative, innovative_length_le, fun _ hk => exec_decgen_of_configured hk⟩

/-! ### What it leaves -/

section Decoded

variable (s : State) (sel : List Nat)

theorem State.decoded_dec :
    (s.decoded sel).dec =
      (s.dec.withResult s.classes (reduce s.dec.k.toNat s.accumulated).2).withSelection sel := rfl

theorem State.decoded_response : (s.decoded sel).response = some (okWord (s.decoded sel).dec.nsucc.toNat) := rfl

theorem State.readByte_decoded (sp : Space) (key : Nat) :
    (s.decoded sel).readByte sp key =
      (s.writeRows 0 (reduce s.dec.k.toNat s.accumulated).1).readByte sp key := rfl

/-- The number of rows of any kind fits its register (R34). -/
theorem State.toNat_ofNat_countP_classes (p : RowClass → Bool) :
    (BitVec.ofNat 8 (s.classes.countP p)).toNat = ((List.range s.dec.rows.toNat).map s.classOf).countP p := by
  have hle : s.classes.countP p ≤ s.dec.rows.toNat := List.countP_le_length.trans_eq s.classes_length
  rw [BitVec.toNat_ofNat, Nat.mod_eq_of_lt (hle.trans_lt s.dec.rows.isLt), s.classes_eq_map]

theorem State.decoded_resRows : (s.decoded sel).dec.resRows = s.dec.rows := by
  change BitVec.ofNat 8 s.classes.length = _
  rw [s.classes_length, BitVec.ofNat_toNat, BitVec.setWidth_eq]

variable {s} (h : s.Inv)
include h

theorem State.Inv.decoded_holdsResult (hk : s.dec.k ≠ 0#5) : HoldsResult s (s.decoded sel) := by
  obtain ⟨hdecK, hresRows, hrank, hbytes⟩ := execDecrun_holdsResult h hk (exec_decrun_of_configured hk)
  exact ⟨hdecK, hresRows, hrank, hbytes⟩

/-- The bytes outside the rows of the result, in DRES and elsewhere, are not written (R190). -/
theorem State.Inv.decoded_sameBytesBut :
    SameBytesBut .dres (InRows s.dec.rows.toNat s.dec.width) s (s.decoded sel) := by
  obtain ⟨hrows, hwidth⟩ := s.accumulated_shape
  obtain ⟨hlen, hwidth', -⟩ := reduce_shape s.dec.k.toNat s.dec.width s.accumulated hwidth
  have h256 : s.dec.width ≤ 256 := (h.decoder.width_le.trans_lt (Params.wMax_lt h.params)).le
  intro sp key hout
  rw [State.readByte_decoded]
  by_cases hsp : sp = .dres
  · subst hsp
    have hkey : key = cellKey (key / 256) (key % 256) := by unfold cellKey; omega
    rw [hkey] at hout ⊢
    rw [State.readByte_writeRows _ _ _ _ _ _ hwidth' h256 (Nat.mod_lt _ (by decide)), if_neg]
    rintro ⟨-, hi, hj⟩
    exact hout ⟨rfl, _, _, by omega, hj, rfl⟩
  · obtain ⟨-, -, -, -, -, -, -, -, -, -, -, hother⟩ :=
      s.writeRows_frame 0 (reduce s.dec.k.toNat s.accumulated).1
    exact hother sp hsp key

theorem State.Inv.decoded_onlyResultChanged : OnlyResultChanged s (s.decoded sel) := by
  obtain ⟨hparams, hepoch, hinbox, -, herrlog, hcg, henc, -, hcfg, hsess, hfc, -⟩ :=
    s.writeRows_frame 0 (reduce s.dec.k.toNat s.accumulated).1
  exact ⟨⟨hparams, hepoch, hinbox, herrlog, hcg, henc, hcfg, hsess, hfc⟩, ⟨rfl, rfl, rfl⟩, h.decoded_sameBytesBut sel⟩

/-! ### The registers of its rows -/

variable {r : Nat} (hr : r < s.dec.rows.toNat)
include hr

/-- A register array that holds one entry for each class, at a row of the result (R190). -/
theorem State.Inv.setPrefix_classes_getD {α : Type} {old : List α} (hold : old.length = s.params.pMax)
    (f : RowClass → α) (d : α) : (setPrefix old (s.classes.map f)).getD r d = f (s.classOf r) := by
  have hrows := h.decoder.rows
  rw [setPrefix_getD_of_lt (by simpa using hr) (by simpa [hold] using hrows)]
  simp [s.classes_eq_map]

theorem State.Inv.decoded_succAt : succAt (s.decoded sel) r = (s.classOf r).succ :=
  h.setPrefix_classes_getD hr h.decoder.succLength _ _

theorem State.Inv.decoded_redAt : redAt (s.decoded sel) r = (s.classOf r).red :=
  h.setPrefix_classes_getD hr h.decoder.redLength _ _

/-- A position is below 16, so it fits DPIV (R34). -/
theorem State.Inv.decoded_pivAt : pivAt (s.decoded sel) r = (s.classOf r).piv := by
  have hlt : (s.classOf r).piv < 16 := by
    rcases classifyRow_cases s.dec.k.toNat (s.reducedRow r) with ⟨p, hp, hclass⟩ | ⟨-, hclass⟩ | ⟨-, -, hclass⟩ <;>
      rw [State.classOf, hclass]
    · exact hp.1.trans_le h.decoder.k
    · decide
    · decide
  calc pivAt (s.decoded sel) r = (BitVec.ofNat 4 (s.classOf r).piv).toNat :=
        congrArg BitVec.toNat (h.setPrefix_classes_getD hr h.decoder.pivLength _ _)
    _ = (s.classOf r).piv := by rw [BitVec.toNat_ofNat, Nat.mod_eq_of_lt hlt]

end Decoded

section Classified

variable {s : State} (h : s.Inv) (hk : s.dec.k ≠ 0#5) (sel : List Nat)
include h hk

theorem State.Inv.decoded_cell {r j : Nat} (hr : r < s.dec.rows.toNat) (hj : j < s.dec.width) :
    cell (s.decoded sel) .dres r j = (entry (s.reducedRow r) j).byte :=
  (h.decoded_holdsResult sel hk).bytes r hr j hj

theorem State.Inv.decoded_unitAt_iff {r p : Nat} (hr : r < s.dec.rows.toNat) :
    UnitAt (s.decoded sel) r p ↔ UnitRow s.dec.k.toNat (s.reducedRow r) p := by
  refine and_congr_right fun _ => forall₂_congr fun i hi => ?_
  rw [h.decoded_cell hk sel hr (hi.trans_le (Nat.le_add_right ..)), ← byte_inj, apply_ite GF.byte]

theorem State.Inv.decoded_zeroVector_iff {r : Nat} (hr : r < s.dec.rows.toNat) :
    ZeroVector (s.decoded sel) r ↔ ZeroRow s.dec.k.toNat (s.reducedRow r) := by
  refine forall₂_congr fun i hi => ?_
  rw [h.decoded_cell hk sel hr (hi.trans_le (Nat.le_add_right ..)), ← byte_inj]

/-- The result registers classify the rows of DRES (R190). -/
theorem State.Inv.decoded_classified : Classified (s.decoded sel) := by
  have hcount (p : RowClass → Bool) (inClass : Nat → Bool)
      (hclass : ∀ r < s.dec.rows.toNat, inClass r = p (s.classOf r)) :
      (BitVec.ofNat 8 (s.classes.countP p)).toNat =
        (List.range (s.decoded sel).dec.resRows.toNat).countP inClass := by
    rw [s.toNat_ofNat_countP_classes, List.countP_map, s.decoded_resRows]
    exact List.countP_congr fun r hr => by rw [hclass r (List.mem_range.1 hr)]; rfl
  refine { succ := fun r hr => ?succ, piv := fun r hr hsucc => ?piv, noPiv := fun r hr hsucc => ?noPiv,
           red := fun r hr => ?red, nsucc := hcount _ _ fun r hr => h.decoded_succAt sel hr,
           nred := hcount _ _ fun r hr => h.decoded_redAt sel hr } <;> rw [s.decoded_resRows] at hr
  case succ =>
    rw [h.decoded_succAt sel hr]
    exact classifyRow_succ_iff.trans (exists_congr fun p => (h.decoded_unitAt_iff hk sel hr).symm)
  case piv =>
    rw [h.decoded_succAt sel hr] at hsucc
    rw [h.decoded_pivAt sel hr]
    exact (h.decoded_unitAt_iff hk sel hr).2 (unitRow_classifyRow_piv hsucc)
  case noPiv =>
    rw [h.decoded_succAt sel hr] at hsucc
    rw [h.decoded_pivAt sel hr]
    exact classifyRow_piv_of_not_succ hsucc
  case red =>
    rw [h.decoded_redAt sel hr]
    exact classifyRow_red_iff.trans (h.decoded_zeroVector_iff hk sel hr).symm

end Classified

end Sys2Proof.Machine
end

section
/-! PROOFS. The reduction of R187 as the statements write it, entry by entry, is the reduction of the model; and so
what DECRUN and DECGEN leave is the result of R187, R190 and R192. -/

open Sys2Proof Sys2Proof.Certificates

namespace Sys2Proof.Machine

/-! ### Entry by entry -/

/-- Division by the 254th power is division by the tables (R140). -/
theorem byteQuot_byte (x : GF) {y : GF} (hy : y ≠ GF.zero) : byteQuot x.byte y.byte = (gfQuot x y).byte := by
  have hinv : gfMul (gfPow y 254) y = GF.one := gfPow_255 hy
  rw [byteQuot, ← gfPow_byte, ← gfMul_byte, byte_inj, ← gfMul_eq_iff_eq_gfQuot hy, gfMul_assoc, hinv, gfMul_one]

/-- Entry `j` of the pivot row (R187, step 2). -/
def scaledPivot (x : (Nat → Nat → Byte) × Nat) (r c j : Nat) : Byte :=
  if c ≤ j then byteQuot (x.1 r j) (x.1 r c) else x.1 r j

section ReduceAt

variable {n c r : Nat} {x : (Nat → Nat → Byte) × Nat}

theorem reduceAt_of_none (hfind : ((List.range n).find? fun i => decide (x.2 ≤ i) && x.1 i c != 0x00#8) = none) :
    reduceAt n c x = x := by
  simp only [reduceAt, hfind]

variable (hfind : ((List.range n).find? fun i => decide (x.2 ≤ i) && x.1 i c != 0x00#8) = some r)
include hfind

theorem reduceAt_pivots : (reduceAt n c x).2 = x.2 + 1 := by
  simp only [reduceAt, hfind]

/-- The work on a column with a pivot: the scaled pivot row goes to its slot, and every other row, after the exchange,
loses its multiple of it (R187, steps 2 to 4). -/
theorem reduceAt_entry (i j : Nat) :
    (reduceAt n c x).1 i j =
      if i = x.2 then scaledPivot x r c j
      else x.1 (if i = r then x.2 else i) j ^^^
        polyMul (x.1 (if i = r then x.2 else i) c) (scaledPivot x r c j) := by
  have hslot : (if x.2 = r then x.2 else r) = r := by split <;> simp_all
  simp only [reduceAt, hfind, scaledPivot, if_true]
  by_cases hi : i = x.2
  · subst hi
    simp only [if_true, hslot, true_and]
  · have hkept : (if i = r then x.2 else i) ≠ r := by split <;> simp_all [eq_comm]
    simp only [if_neg hi, hslot, hkept, false_and, if_false, true_and]

end ReduceAt

/-- A matrix of `n` rows of width `w` given entry by entry, and the same matrix as rows, with one pivot count. -/
structure Represents (n w : Nat) (x : (Nat → Nat → Byte) × Nat) (mp : Matrix × Nat) : Prop where
  length : mp.1.length = n
  width : ∀ row ∈ mp.1, row.length = w
  room : mp.2 ≤ n
  pivots : x.2 = mp.2
  entries : ∀ i < n, ∀ j < w, x.1 i j = (entryAt mp.1 i j).byte

section Represents

variable {n w c r : Nat} {x : (Nat → Nat → Byte) × Nat} {mp : Matrix × Nat}

theorem Represents.find?_eq (h : Represents n w x mp) (hc : c < w) :
    ((List.range n).find? fun i => decide (x.2 ≤ i) && x.1 i c != 0x00#8) = findPivot mp.1 mp.2 c := by
  rw [findPivot, h.length]
  refine List.find?_congr fun i hi => ?_
  have hne : (x.1 i c != 0x00#8) = (entry (mp.1.getD i []) c != GF.zero) := by
    rw [h.entries i (List.mem_range.1 hi) c hc, Bool.eq_iff_iff, bne_iff_ne, bne_iff_ne]
    exact byte_inj.not
  rw [h.pivots, hne]

theorem Represents.scaledPivot_eq (h : Represents n w x mp) (hc : c < w) (hpiv : findPivot mp.1 mp.2 c = some r)
    {j : Nat} (hj : j < w) : scaledPivot x r c j = (entry (normalize (mp.1.getD r []) c) j).byte := by
  obtain ⟨-, hr, hne⟩ := findPivot_some hpiv
  rw [h.length] at hr
  rw [scaledPivot, h.entries r hr j hj, h.entries r hr c hc, entry_normalize]
  by_cases hcj : c ≤ j
  · rw [if_pos hcj, if_neg (not_lt.2 hcj)]
    exact byteQuot_byte _ hne
  · rw [if_neg hcj, if_pos (not_le.1 hcj)]
    rfl

/-- The work on one column is the same on both (R187, steps 1 to 4). -/
theorem Represents.reduceColumn (h : Represents n w x mp) (hc : c < w) :
    Represents n w (reduceAt n c x) (reduceColumn c mp) := by
  have hfind := h.find?_eq hc
  cases hpiv : findPivot mp.1 mp.2 c with
  | none =>
    rw [reduceAt_of_none (hfind.trans hpiv)]
    simpa only [Machine.reduceColumn, hpiv] using h
  | some r =>
    obtain ⟨hlen, hwidth, -, -, hroom⟩ := reduceColumn_shape c w mp h.width (h.room.trans_eq h.length.symm)
    obtain ⟨hle, hr, -⟩ := findPivot_some hpiv
    rw [h.length] at hr
    refine { length := hlen.trans h.length, width := hwidth, room := hroom.trans_eq h.length, pivots := ?pivots,
             entries := fun i hi j hj => ?entry }
    case pivots =>
      rw [reduceAt_pivots (hfind.trans hpiv), h.pivots]
      simp only [Machine.reduceColumn, hpiv]
    case entry =>
      have hrow : (if i = r then mp.2 else i) < n := by split <;> omega
      rw [reduceAt_entry (hfind.trans hpiv), entryAt_reduceColumn h.width hpiv (hi.trans_eq h.length.symm), h.pivots,
        h.scaledPivot_eq hc hpiv hj, h.entries _ hrow j hj, h.entries _ hrow c hc, ← gfMul_byte]
      exact (apply_ite GF.byte ..).symm

end Represents

/-- The accumulated set is the bytes of DPKT (R185). -/
theorem State.entryAt_accumulated (s : State) {r j : Nat} (hr : r < s.dec.rows.toNat) (hj : j < s.dec.width) :
    entryAt s.accumulated r j = ⟨cell s .dpkt r j⟩ := by
  simp [entryAt, entry, State.accumulated, State.readRun, hr, hj, cell, cellKey_zero_add]

/-- The reduction of the accumulated set, column by column, is the same on both (R187). -/
theorem State.represents_reduce (s : State) {k : Nat} (hk : k ≤ s.dec.width) :
    Represents s.dec.rows.toNat s.dec.width
      ((List.range k).foldl (fun x c => reduceAt s.dec.rows.toNat c x) (fun r j => cell s .dpkt r j, 0))
      (reduce k s.accumulated) := by
  obtain ⟨hrows, hwidth⟩ := s.accumulated_shape
  induction k with
  | zero =>
    refine { length := hrows, width := hwidth, room := Nat.zero_le _, pivots := rfl, entries := fun i hi j hj => ?_ }
    exact (congrArg GF.byte (s.entryAt_accumulated hi hj)).symm
  | succ k ih =>
    rw [List.range_succ, List.foldl_append, reduce_succ]
    exact (ih (Nat.le_of_succ_le hk)).reduceColumn hk

theorem State.reducedOf_represents (s : State) :
    Represents s.dec.rows.toNat s.dec.width (reducedOf s) (reduce s.dec.k.toNat s.accumulated) :=
  s.represents_reduce (Nat.le_add_right ..)

/-! ### DECRUN -/

/-- Settles O36: the one operation with no row listed. -/
theorem decrunReducesAndClassifies : Obligations.DecrunReducesAndClassifies := by
  intro s
  refine ⟨hasWord_row_fields .decrun, fun h hk => ?completes, exec_decrun_of_unconfigured⟩
  have hreduced := s.reducedOf_represents
  have hresult := h.decoded_holdsResult [] hk
  refine ⟨s.decoded [], exec_decrun_of_configured hk, s.decoded_response [], hresult.resRows, fun r hr j hj => ?bytes,
    hresult.rank.trans hreduced.pivots.symm, h.decoded_classified hk [], rfl, setPrefix_nil _,
    h.decoded_onlyResultChanged []⟩
  case bytes => rw [hresult.bytes r hr j hj, hreduced.entries r hr j hj]

/-! ### DECGEN -/

/-- The listed rows stand in DSEL, one byte each (R192). -/
theorem State.Inv.decoded_selection {s : State} (h : s.Inv) {sel : List Nat} (hlen : sel.length ≤ s.dec.rows.toNat)
    (hsel : ∀ r ∈ sel, r < s.dec.rows.toNat) :
    (s.decoded sel).dec.nsel.toNat = sel.length ∧
      ((List.range sel.length).map fun j => ((s.decoded sel).dec.sel.getD j 0#8).toNat) = sel := by
  have hbyte := s.dec.rows.isLt
  have hrows := h.decoder.rows
  have hold := h.decoder.selLength
  refine ⟨?_, List.ext_getElem (by simp) fun j _ hj => ?_⟩
  · change (BitVec.ofNat 8 sel.length).toNat = _
    rw [BitVec.toNat_ofNat, Nat.mod_eq_of_lt (hlen.trans_lt hbyte)]
  · have hlt := hsel _ (List.getElem_mem hj)
    have hentry : (s.decoded sel).dec.sel.getD j 0#8 = (sel.map (BitVec.ofNat 8))[j]'(by simpa using hj) :=
      setPrefix_getD_of_lt _ (by rw [List.length_map]; exact (hlen.trans hrows).trans_eq hold.symm) _
    rw [List.getElem_map, List.getElem_range, hentry, List.getElem_map, BitVec.toNat_ofNat,
      Nat.mod_eq_of_lt (hlt.trans hbyte)]

theorem State.innovative_classes_eq (s : State) :
    innovative s.classes = (List.range s.dec.rows.toNat).filter fun r => (s.classOf r).succ && !(s.classOf r).red := by
  rw [s.classes_eq_map, innovative_map_range]

/-- Settles O37: the one operation with the successful rows listed. -/
theorem decgenListsTheInnovativeRows : Obligations.DecgenListsTheInnovativeRows := by
  intro s
  refine ⟨hasWord_row_fields .decgen, fun h hk => ?completes, exec_decgen_of_unconfigured⟩
  have hlen : (innovative s.classes).length ≤ s.dec.rows.toNat :=
    (innovative_length_le _).trans_eq s.classes_length
  have hsel : ∀ r ∈ innovative s.classes, r < s.dec.rows.toNat := fun r hr => by
    rw [s.innovative_classes_eq] at hr
    exact List.mem_range.1 (List.mem_filter.1 hr).1
  obtain ⟨hnsel, hlist⟩ := h.decoded_selection hlen hsel
  have hcount : (s.decoded (innovative s.classes)).dec.nsel = (s.decoded (innovative s.classes)).dec.nsucc :=
    congrArg (BitVec.ofNat 8) s.innovative_classes_length
  refine ⟨_, _, exec_decgen_of_configured hk, exec_decrun_of_configured hk, fun _ _ => rfl, rfl, ?answer, hcount,
    h.decoded_classified hk _, ?list, h.decoded_onlyResultChanged _⟩
  case answer => rw [hcount, s.decoded_response]
  case list =>
    rw [hnsel, hlist, s.decoded_resRows, s.innovative_classes_eq]
    refine List.filter_congr fun r hr => ?_
    have hr := List.mem_range.1 hr
    rw [h.decoded_succAt _ hr, h.decoded_redAt _ hr]

end Sys2Proof.Machine
end

section
/-! PROOFS. The reduction of R187 is by invertible row operations: a linear relation among the columns holds of every
row before the work on a column exactly when it holds of every row after it. That a payload is its vector's weighted
sum of the fragments is such a relation, so it holds of the result too (R194). -/

open Sys2Proof Sys2Proof.Certificates

namespace Sys2Proof.Machine

/-! ### Sums of bytes -/

theorem polyMul_comm (a b : Byte) : polyMul a b = polyMul b a := by
  rw [← gfMul_byte ⟨a⟩ ⟨b⟩, gfMul_comm, gfMul_byte]

theorem polyMul_assoc (a b c : Byte) : polyMul (polyMul a b) c = polyMul a (polyMul b c) := by
  have h := congrArg GF.byte (gfMul_assoc ⟨a⟩ ⟨b⟩ ⟨c⟩)
  simpa only [gfMul_byte] using h

theorem polyMul_left_comm (a b c : Byte) : polyMul a (polyMul b c) = polyMul b (polyMul a c) := by
  rw [← polyMul_assoc, polyMul_comm a b, polyMul_assoc]

theorem polyMul_xor (a b c : Byte) : polyMul a (b ^^^ c) = polyMul a b ^^^ polyMul a c := by
  have h := congrArg GF.byte (gfMul_gfAdd ⟨a⟩ ⟨b⟩ ⟨c⟩)
  simpa only [gfMul_byte, gfAdd_byte] using h

theorem polyMul_zero_right (a : Byte) : polyMul a 0x00#8 = 0x00#8 := by
  rw [polyMul_comm, polyMul_zero_left]

/-- The field has no zero divisors. -/
theorem polyMul_eq_zero_iff {v : GF} (hv : v ≠ GF.zero) (b : Byte) : polyMul v.byte b = 0x00#8 ↔ b = 0x00#8 := by
  have h := gfMul_eq_iff_eq_gfQuot (x := ⟨b⟩) (z := GF.zero) hv
  rw [gfQuot_zero_left, gfMul_comm, ← byte_inj, ← byte_inj, gfMul_byte] at h
  exact h

section XorSum

variable {n : Nat} {f g : Nat → Byte}

theorem xorSumTo_succ (n : Nat) (f : Nat → Byte) : xorSumTo (n + 1) f = xorSumTo n f ^^^ f n := by
  have happend (l : List Byte) (b : Byte) : xorSum (l ++ [b]) = xorSum l ^^^ b := by
    induction l with
    | nil => exact BitVec.xor_comm ..
    | cons a l ih =>
      calc xorSum (a :: l ++ [b]) = a ^^^ xorSum (l ++ [b]) := rfl
        _ = xorSum (a :: l) ^^^ b := by rw [ih, ← BitVec.xor_assoc]; rfl
  rw [xorSumTo, List.range_succ, List.map_append, List.map_singleton, happend, xorSumTo]

theorem xorSumTo_congr (h : ∀ j < n, f j = g j) : xorSumTo n f = xorSumTo n g :=
  congrArg xorSum (List.map_congr_left fun j hj => h j (List.mem_range.1 hj))

theorem xorSumTo_xor (n : Nat) (f g : Nat → Byte) :
    xorSumTo n (fun j => f j ^^^ g j) = xorSumTo n f ^^^ xorSumTo n g := by
  induction n with
  | zero => exact (BitVec.xor_self ..).symm
  | succ n ih =>
    rw [xorSumTo_succ, ih, xorSumTo_succ, xorSumTo_succ]
    ac_rfl

theorem polyMul_xorSumTo (a : Byte) (n : Nat) (f : Nat → Byte) :
    polyMul a (xorSumTo n f) = xorSumTo n fun j => polyMul a (f j) := by
  induction n with
  | zero => exact polyMul_zero_right a
  | succ n ih => rw [xorSumTo_succ, polyMul_xor, ih, xorSumTo_succ]

theorem xorSumTo_add (k m : Nat) (f : Nat → Byte) :
    xorSumTo (k + m) f = xorSumTo k f ^^^ xorSumTo m fun j => f (k + j) := by
  induction m with
  | zero => exact (BitVec.xor_zero ..).symm
  | succ m ih => rw [← Nat.add_assoc, xorSumTo_succ, ih, xorSumTo_succ, BitVec.xor_assoc]

theorem xorSumTo_eq_zero (h : ∀ j < n, f j = 0x00#8) : xorSumTo n f = 0x00#8 := by
  induction n with
  | zero => rfl
  | succ n ih =>
    rw [xorSumTo_succ, ih fun j hj => h j (Nat.lt_succ_of_lt hj), h n (Nat.lt_succ_self n)]
    rfl

theorem xorSumTo_eq_single {x : Nat} (hx : x < n) (h : ∀ j < n, j ≠ x → f j = 0x00#8) : xorSumTo n f = f x := by
  induction n with
  | zero => contradiction
  | succ n ih =>
    rw [xorSumTo_succ]
    rcases Nat.lt_succ_iff_lt_or_eq.1 hx with hlt | rfl
    · rw [ih hlt fun j hj => h j (Nat.lt_succ_of_lt hj), h n (Nat.lt_succ_self n) hlt.ne', BitVec.xor_zero]
    · rw [xorSumTo_eq_zero fun j hj => h j (Nat.lt_succ_of_lt hj) hj.ne, BitVec.zero_xor]

end XorSum

/-! ### A linear relation among columns -/

/-- The left side of the linear relation with coefficients `coeff`, on a row given entry by entry. -/
def relation (w : Nat) (coeff : Nat → Byte) (row : Nat → GF) : Byte :=
  xorSumTo w fun j => polyMul (coeff j) (row j).byte

section Relation

variable {w : Nat} (coeff : Nat → Byte) {row row' p : Nat → GF} {a : GF}

theorem relation_of_scaled (h : ∀ j < w, row j = gfMul a (p j)) :
    relation w coeff row = polyMul a.byte (relation w coeff p) := by
  rw [relation, relation, polyMul_xorSumTo]
  exact xorSumTo_congr fun j hj => by rw [h j hj, gfMul_byte, polyMul_left_comm]

theorem relation_of_eliminated (h : ∀ j < w, row' j = gfSub (row j) (gfMul a (p j))) :
    relation w coeff row' = relation w coeff row ^^^ polyMul a.byte (relation w coeff p) := by
  rw [relation, relation, relation, polyMul_xorSumTo, ← xorSumTo_xor]
  refine xorSumTo_congr fun j hj => ?_
  calc polyMul (coeff j) (row' j).byte = polyMul (coeff j) ((row j).byte ^^^ (gfMul a (p j)).byte) := by
        rw [h j hj]; rfl
    _ = _ := by rw [polyMul_xor, gfMul_byte, polyMul_left_comm]

end Relation

/-- The relation holds of every row of a matrix of width `w`. -/
def HoldsOfRows (w : Nat) (coeff : Nat → Byte) (m : Matrix) : Prop :=
  ∀ i < m.length, relation w coeff (entryAt m i) = 0x00#8

/-- The pivot row of R187 is a row with its pivot as a factor: before the pivot column it is zero. -/
theorem Echelon.entryAt_pivotRow {c r : Nat} {m : Matrix} {col : List Nat} (h : Echelon c m col)
    (hpiv : findPivot m col.length c = some r) (j : Nat) :
    entryAt m r j = gfMul (entryAt m r c) (entry (normalize (m.getD r []) c) j) := by
  obtain ⟨hle, hr, hne⟩ := findPivot_some hpiv
  rcases Nat.lt_or_ge j c with hj | hj
  · rw [(h.pivotRow hpiv).1 j hj, gfMul_zero, h.below r hr hle j hj]
  · rw [entry_normalize, if_neg (not_lt.2 hj), gfMul_comm]
    exact ((gfMul_eq_iff_eq_gfQuot hne).2 rfl).symm

/-- One elimination step on a value of each row: the pivot row's value is `pivot`, scaled by something that is not zero
before, and goes to slot `piv`; every other slot gets a row's value less a multiple of it. All values are zero after
the step exactly when they all were before. -/
theorem eliminated_eq_zero_iff {n piv r : Nat} {old new : Nat → Byte} (scale : Nat → GF) {pivot : Byte} {v : GF}
    (hpiv : piv < n) (hr : r < n) (hv : v ≠ GF.zero) (hrow : old r = polyMul v.byte pivot) (hslot : new piv = pivot)
    (hother : ∀ i < n, i ≠ piv → new i = old (if i = r then piv else i) ^^^ polyMul (scale i).byte pivot) :
    (∀ i < n, new i = 0x00#8) ↔ ∀ i < n, old i = 0x00#8 := by
  have hexchange (hzero : pivot = 0x00#8) (i : Nat) (hi : i < n) (hne : i ≠ piv) :
      new i = old (if i = r then piv else i) := by
    rw [hother i hi hne, hzero, polyMul_zero_right, BitVec.xor_zero]
  constructor
  · intro hnew i hi
    have hzero : pivot = 0x00#8 := hslot.symm.trans (hnew piv hpiv)
    by_cases hir : i = r
    · rw [hir, hrow, hzero, polyMul_zero_right]
    by_cases hip : i = piv
    · have hback := hexchange hzero r hr fun hrp => hir (hip.trans hrp.symm)
      rw [hip, ← hnew r hr, hback, if_pos rfl]
    · rw [← hnew i hi, hexchange hzero i hi hip, if_neg hir]
  · intro hold i hi
    have hzero : pivot = 0x00#8 := (polyMul_eq_zero_iff hv _).1 (hrow.symm.trans (hold r hr))
    by_cases hip : i = piv
    · rw [hip, hslot, hzero]
    · rw [hexchange hzero i hi hip]
      exact hold _ (by split <;> assumption)

/-- The work on one column keeps every relation, and can be undone (R187). -/
theorem Echelon.holdsOfRows_reduceColumn_iff {c w : Nat} {mp : Matrix × Nat} {col : List Nat}
    (hw : ∀ row ∈ mp.1, row.length = w) (h : Echelon c mp.1 col) (hcol : col.length = mp.2) (coeff : Nat → Byte) :
    HoldsOfRows w coeff (Machine.reduceColumn c mp).1 ↔ HoldsOfRows w coeff mp.1 := by
  cases hpiv : findPivot mp.1 mp.2 c with
  | none => simp only [Machine.reduceColumn, hpiv]
  | some r =>
    obtain ⟨hle, hr, hne⟩ := findPivot_some hpiv
    have hlen : (Machine.reduceColumn c mp).1.length = mp.1.length := by simp [Machine.reduceColumn, hpiv]
    rw [HoldsOfRows, HoldsOfRows, hlen]
    refine eliminated_eq_zero_iff (fun i => entryAt mp.1 (if i = r then mp.2 else i) c) (hle.trans_lt hr) hr hne
      (relation_of_scaled coeff fun j _ => h.entryAt_pivotRow (hcol ▸ hpiv) j)
      (xorSumTo_congr fun j _ => ?slot)
      (fun i hi hslot => relation_of_eliminated coeff fun j _ => ?other)
    case slot => rw [entryAt_reduceColumn hw hpiv (hle.trans_lt hr), if_pos rfl]
    case other => rw [entryAt_reduceColumn hw hpiv hi, if_neg hslot]

/-- The reduction keeps every linear relation among columns, and so the row space (R187). -/
theorem holdsOfRows_reduce_iff {w : Nat} {m : Matrix} (hw : ∀ row ∈ m, row.length = w) (k : Nat) (coeff : Nat → Byte) :
    HoldsOfRows w coeff (reduce k m).1 ↔ HoldsOfRows w coeff m := by
  induction k with
  | zero => exact Iff.rfl
  | succ k ih =>
    obtain ⟨col, hech, hcol⟩ := reduce_echelon hw k
    obtain ⟨-, hwidth, -⟩ := reduce_shape k w m hw
    rw [reduce_succ, hech.holdsOfRows_reduceColumn_iff hwidth hcol, ih]

/-! ### The relation on the bytes of DPKT and DRES -/

theorem State.holdsOfRows_accumulated_iff (s : State) (coeff : Nat → Byte) :
    HoldsOfRows s.dec.width coeff s.accumulated ↔
      ∀ r < s.dec.rows.toNat, xorSumTo s.dec.width (fun j => polyMul (coeff j) (cell s .dpkt r j)) = 0x00#8 := by
  rw [HoldsOfRows, s.accumulated_shape.1]
  refine forall₂_congr fun r hr => ?_
  rw [relation, xorSumTo_congr fun j hj => by rw [s.entryAt_accumulated hr hj]]

theorem HoldsResult.holdsOfRows_reduce_iff {s t : State} (h : HoldsResult s t) (coeff : Nat → Byte) :
    HoldsOfRows s.dec.width coeff (reduce s.dec.k.toNat s.accumulated).1 ↔
      ∀ r < s.dec.rows.toNat, xorSumTo s.dec.width (fun j => polyMul (coeff j) (cell t .dres r j)) = 0x00#8 := by
  obtain ⟨hrows, hwidth⟩ := s.accumulated_shape
  obtain ⟨hlen, -⟩ := reduce_shape s.dec.k.toNat s.dec.width s.accumulated hwidth
  rw [HoldsOfRows, hlen, hrows]
  refine forall₂_congr fun r hr => ?_
  rw [relation, xorSumTo_congr fun j hj => by rw [← h.bytes r hr j hj]]

/-- A linear relation among columns holds of the result exactly when it holds of the accumulated packets (R187). -/
theorem HoldsResult.relation_iff {s t : State} (h : HoldsResult s t) (coeff : Nat → Byte) :
    (∀ r < s.dec.rows.toNat, xorSumTo s.dec.width (fun j => polyMul (coeff j) (cell s .dpkt r j)) = 0x00#8) ↔
      ∀ r < s.dec.rows.toNat, xorSumTo s.dec.width (fun j => polyMul (coeff j) (cell t .dres r j)) = 0x00#8 := by
  rw [← s.holdsOfRows_accumulated_iff, ← h.holdsOfRows_reduce_iff, Machine.holdsOfRows_reduce_iff s.accumulated_shape.2]

/-- Settles O38: every column's work keeps every relation. -/
theorem reductionKeepsTheRowSpace : Obligations.ReductionKeepsTheRowSpace :=
  fun _ _ coeff h hk ht => (execDecrun_holdsResult h hk ht).relation_iff coeff

/-! ### Coded packets -/

/-- The coefficients of the relation that says that payload byte `x` is the vector's weighted sum of the fragments. -/
def payloadRelation (k : Nat) (fragment : Nat → Nat → Byte) (x j : Nat) : Byte :=
  if j < k then fragment j x else if j = k + x then 0x01#8 else 0x00#8

theorem payloadRelation_eq_zero_iff {k m x : Nat} (hx : x < m) (fragment : Nat → Nat → Byte) (row : Nat → Byte) :
    xorSumTo (k + m) (fun j => polyMul (payloadRelation k fragment x j) (row j)) = 0x00#8 ↔
      row (k + x) = xorSumTo k fun p => polyMul (row p) (fragment p x) := by
  have hvector : xorSumTo k (fun j => polyMul (payloadRelation k fragment x j) (row j)) =
      xorSumTo k fun p => polyMul (row p) (fragment p x) :=
    xorSumTo_congr fun j hj => by rw [payloadRelation, if_pos hj, polyMul_comm]
  have hpayload : xorSumTo m (fun j => polyMul (payloadRelation k fragment x (k + j)) (row (k + j))) = row (k + x) := by
    rw [xorSumTo_eq_single hx fun j _ hne => ?zero]
    case zero => rw [payloadRelation, if_neg (by omega), if_neg (by omega), polyMul_zero_left]
    rw [payloadRelation, if_neg (by omega), if_pos rfl, polyMul_one_left]
  rw [xorSumTo_add, hvector, hpayload, BitVec.xor_eq_zero_iff, eq_comm]

/-- Settles O40: the relation between vector and payload holds of the result, where a unit vector picks one fragment
and a zero vector none. -/
theorem decodingRecoversTheFragments : Obligations.DecodingRecoversTheFragments := by
  intro s t i fragment h hk hi hcoded ht r hr x hx
  obtain ⟨sel, -, hexec⟩ := exists_selection hi
  obtain rfl : s.decoded (sel s.classes) = t := Host.Outcome.next.inj ((hexec s hk).symm.trans ht)
  have hresult := h.decoded_holdsResult (sel s.classes) hk
  have hclass := h.decoded_classified hk (sel s.classes)
  have hpayload := (payloadRelation_eq_zero_iff hx fragment _).1
    ((hresult.relation_iff _).1 (fun r hr => (payloadRelation_eq_zero_iff hx fragment _).2 (hcoded r hr x hx)) r
      (hresult.resRows ▸ hr))
  rw [hpayload, ← hresult.k]
  refine ⟨fun hsucc => ?fragment, fun hred => ?nothing⟩
  case fragment =>
    obtain ⟨hlt, hunit⟩ := hclass.piv r hr hsucc
    rw [xorSumTo_eq_single hlt fun p hp hne => ?zero, hunit _ hlt, if_pos rfl, polyMul_one_left]
    case zero => rw [hunit p hp, if_neg hne, polyMul_zero_left]
  case nothing =>
    have hzero := (hclass.red r hr).1 hred
    exact xorSumTo_eq_zero fun p hp => by rw [hzero p hp, polyMul_zero_left]

end Sys2Proof.Machine
end

section
/-! PROOFS. At full rank every column is a pivot column, so the pivot columns are the positions in order, each row
below the generation size is the unit vector of its own position, and the rows after it are zero (R194). -/

open Sys2Proof Sys2Proof.Certificates

namespace Sys2Proof.Machine

/-- Increasing numbers below their count are all the numbers below it. -/
theorem eq_range_of_pairwise_lt {l : List Nat} (hsorted : l.Pairwise (· < ·)) (hlt : ∀ c ∈ l, c < l.length) :
    l = List.range l.length := by
  have hsub : l ⊆ List.range l.length := fun c hc => List.mem_range.2 (hlt c hc)
  have hperm : l.Perm (List.range l.length) :=
    (List.subperm_of_subset (hsorted.imp Nat.ne_of_lt) hsub).perm_of_length_le (by rw [List.length_range])
  exact hperm.eq_of_pairwise (fun _ _ _ _ hab hba => absurd hab hba.asymm) hsorted List.pairwise_lt_range

theorem countP_range_of_lt {k n : Nat} {p : Nat → Bool} (hk : k ≤ n) (hp : ∀ r < n, p r = true ↔ r < k) :
    (List.range n).countP p = k := by
  obtain ⟨m, rfl⟩ := Nat.exists_eq_add_of_le hk
  have hbelow : (List.range k).countP p = (List.range k).length :=
    List.countP_eq_length.2 fun r hr => by
      have hr := List.mem_range.1 hr
      exact (hp r (by omega)).2 hr
  have habove : ((List.range m).map (k + ·)).countP p = 0 :=
    List.countP_eq_zero.2 fun r hr => by
      obtain ⟨i, hi, rfl⟩ := List.mem_map.1 hr
      have hi := List.mem_range.1 hi
      rw [hp _ (by omega)]
      omega
  rw [List.range_add, List.countP_append, hbelow, habove, List.length_range, Nat.add_zero]

section FullRank

variable {s : State} (h : s.Inv) (hk : s.dec.k ≠ 0#5) (hfull : (s.decoded []).dec.rank = s.dec.k)
include h hk hfull

/-- Every row of a result of full rank is a unit vector at its own position, or zero (R188, R194). -/
theorem unitRow_or_zeroRow_of_fullRank {r : Nat} (hr : r < s.dec.rows.toNat) :
    (r < s.dec.k.toNat → UnitRow s.dec.k.toNat (s.reducedRow r) r) ∧
      (s.dec.k.toNat ≤ r → ZeroRow s.dec.k.toNat (s.reducedRow r)) := by
  obtain ⟨col, hlen, hsorted, hlt, hunit, -, hzero⟩ :=
    reductionIsReducedEchelon s (s.decoded []) h hk (exec_decrun_of_configured hk)
  have hr' : r < (s.decoded []).dec.resRows.toNat := by rwa [s.decoded_resRows]
  rw [hfull] at hlen hzero
  have hcol : col = List.range col.length := eq_range_of_pairwise_lt hsorted fun c hc => hlen.symm ▸ hlt c hc
  rw [← h.decoded_unitAt_iff hk [] hr, ← h.decoded_zeroVector_iff hk [] hr]
  refine ⟨fun hrk => ⟨hrk, fun i hi => ?_⟩, hzero r hr'⟩
  have hi : i < col.length := hlen.symm ▸ hi
  have hentry : col[i] = i := by rw [List.getElem_of_eq hcol, List.getElem_range]
  rw [← if_congr (eq_comm (a := r)) rfl rfl, ← hunit i hi r hr', hentry]

theorem classOf_succ_iff_of_fullRank {r : Nat} (hr : r < s.dec.rows.toNat) :
    (s.classOf r).succ = true ↔ r < s.dec.k.toNat := by
  obtain ⟨hunit, hzero⟩ := unitRow_or_zeroRow_of_fullRank h hk hfull hr
  rw [State.classOf, classifyRow_succ_iff]
  refine ⟨fun ⟨p, hp⟩ => ?_, fun hrk => ⟨r, hunit hrk⟩⟩
  by_contra hrk
  exact hp.not_zeroRow (hzero (not_lt.1 hrk))

end FullRank

/-- Settles O41: the unit vectors are the successful rows, and the zero vectors the redundant ones. -/
theorem fullRankDecodesEveryFragment : Obligations.FullRankDecodesEveryFragment := by
  intro s t h hk ht hfull
  have hle : t.dec.k.toNat ≤ t.dec.resRows.toNat := hfull ▸ (exec_inv h ht).decoder.rankRows
  obtain rfl : s.decoded [] = t := Host.Outcome.next.inj ((exec_decrun_of_configured hk).symm.trans ht)
  rw [s.decoded_resRows] at hle ⊢
  have hsucc (r : Nat) (hr : r < s.dec.rows.toNat) : succAt (s.decoded []) r = true ↔ r < s.dec.k.toNat := by
    rw [h.decoded_succAt [] hr, classOf_succ_iff_of_fullRank h hk hfull hr]
  refine ⟨hle, ?count, fun r hr => ?row⟩
  case count =>
    rw [(h.decoded_classified hk []).nsucc, s.decoded_resRows]
    exact countP_range_of_lt hle hsucc
  case row =>
    obtain ⟨hunit, hzero⟩ := unitRow_or_zeroRow_of_fullRank h hk hfull hr
    split
    · next hrk =>
      have hsuccess := (hsucc r hr).2 hrk
      refine ⟨hsuccess, ?_⟩
      rw [h.decoded_succAt [] hr] at hsuccess
      rw [h.decoded_pivAt [] hr]
      exact (unitRow_classifyRow_piv hsuccess).unique (hunit hrk)
    · next hrk =>
      rw [h.decoded_redAt [] hr]
      exact classifyRow_red_iff.2 (hzero (not_lt.1 hrk))

end Sys2Proof.Machine
end

section
/-! PROOFS. A byte that a memory lists is not changed by writing it again: in the canonical form there is one place
for it. So result rows written twice are written once (R190). -/

open Sys2Proof Sys2Proof.Certificates

namespace Sys2Proof.Machine

/-! ### One memory -/

/-- Behind the first key of a canonical memory there are greater keys only. -/
theorem Memory.lt_of_byteAt_tail {k a : Nat} {v w : Byte} {m : Memory} (hwf : Memory.wf ((k, w) :: m) = true)
    (h : Memory.byteAt m a = some v) : k < a := by
  induction m generalizing k w with
  | nil => contradiction
  | cons c m ih =>
    obtain ⟨k', w'⟩ := c
    rw [Memory.wf_cons] at hwf
    obtain ⟨hhead, htail⟩ := hwf
    have hk : k < k' := hhead (k', w') rfl
    rw [Memory.byteAt] at h
    split at h
    · next heq => exact heq ▸ hk
    · exact hk.trans (ih htail h)

theorem Memory.store_of_byteAt {a : Nat} {v : Byte} {m : Memory} (hwf : Memory.wf m = true)
    (h : Memory.byteAt m a = some v) : Memory.store m a v = m := by
  induction m with
  | nil => contradiction
  | cons c m ih =>
    obtain ⟨k, w⟩ := c
    rw [Memory.byteAt] at h
    split at h
    · next heq =>
      subst heq
      rw [Memory.store, if_neg (lt_irrefl _), if_pos rfl, Option.some.inj h]
    · next hne =>
      have hlt := Memory.lt_of_byteAt_tail hwf h
      rw [Memory.store, if_neg hlt.asymm, if_neg hlt.ne', ih ((Memory.wf_cons ..).1 hwf).2 h]

theorem Memory.storeRun_of_byteAt {bs : List Byte} {a : Nat} {m : Memory} (hwf : Memory.wf m = true)
    (h : ∀ j (hj : j < bs.length), Memory.byteAt m (a + j) = some bs[j]) : Memory.storeRun m a bs = m := by
  induction bs generalizing a with
  | nil => rfl
  | cons b bs ih =>
    have hfirst : Memory.store m a b = m := Memory.store_of_byteAt hwf (h 0 (Nat.succ_pos _))
    rw [Memory.storeRun, hfirst]
    refine ih fun j hj => ?_
    rw [Nat.add_assoc, Nat.add_comm 1 j]
    exact h (j + 1) (Nat.succ_lt_succ hj)

theorem Memories.set_get (m : Memories) (sp : Space) : m.set sp (m.get sp) = m := by
  cases sp <;> rfl

/-! ### The bytes that a state lists -/

/-- A command has written the byte since reset (R72). -/
def State.Lists (s : State) (sp : Space) (key : Nat) : Prop := (Memory.byteAt (s.mem.get sp) key).isSome = true

section Lists

variable {s : State} {sp : Space} {key : Nat}

theorem State.Lists.byteAt_eq (h : s.Lists sp key) : Memory.byteAt (s.mem.get sp) key = some (s.readByte sp key) := by
  obtain ⟨v, hv⟩ := Option.isSome_iff_exists.1 h
  rw [State.readByte, hv]
  rfl

theorem State.lists_writeRun_iff {k : Nat} {bs : List Byte} :
    (s.writeRun sp k bs).Lists sp key ↔ (k ≤ key ∧ key < k + bs.length) ∨ s.Lists sp key := by
  rw [State.Lists, State.writeRun, State.setMem_mem, Memories.get_set_same, Memory.byteAt_storeRun]
  split <;> simp_all [State.Lists]

theorem State.writeRun_of_lists {bs : List Byte} (hwf : Memory.wf (s.mem.get sp) = true)
    (h : ∀ j (hj : j < bs.length), s.Lists sp (key + j) ∧ s.readByte sp (key + j) = bs[j]) :
    s.writeRun sp key bs = s := by
  rw [State.writeRun, Memory.storeRun_of_byteAt hwf fun j hj => ?_, Memories.set_get]
  · rfl
  · obtain ⟨hlists, hread⟩ := h j hj
    rw [hlists.byteAt_eq, hread]

/-- A byte once written stays written, whatever result rows follow. -/
theorem State.Lists.writeRows (h : s.Lists .dres key) (r : Nat) (m : Matrix) : (s.writeRows r m).Lists .dres key := by
  induction m generalizing s r with
  | nil => exact h
  | cons row m ih => exact ih (State.lists_writeRun_iff.2 (.inr h)) (r + 1)

theorem State.lists_writeRows {r w i j : Nat} {m : Matrix} (hw : ∀ row ∈ m, row.length = w) (hlo : r ≤ i)
    (hhi : i < r + m.length) (hj : j < w) : (s.writeRows r m).Lists .dres (cellKey i j) := by
  induction m generalizing s r with
  | nil =>
    rw [List.length_nil] at hhi
    omega
  | cons row m ih =>
    rcases hlo.eq_or_lt with rfl | hlt
    · refine State.Lists.writeRows (State.lists_writeRun_iff.2 (.inl ?_)) _ m
      rw [List.length_map, hw row List.mem_cons_self]
      unfold cellKey
      omega
    · rw [List.length_cons] at hhi
      exact ih (fun row' hrow => hw row' (List.mem_cons_of_mem _ hrow)) hlt (by omega)

/-- Result rows that DRES lists already change nothing (R190). -/
theorem State.writeRows_of_lists {r : Nat} {m : Matrix} (hwf : Memory.wf (s.mem.get .dres) = true)
    (h : ∀ i < m.length, ∀ j < (m.getD i []).length,
      s.Lists .dres (cellKey (r + i) j) ∧ cell s .dres (r + i) j = (entryAt m i j).byte) :
    s.writeRows r m = s := by
  induction m generalizing r with
  | nil => rfl
  | cons row m ih =>
    have hfirst : s.writeRun .dres (cellKey r 0) (row.map GF.byte) = s := by
      refine State.writeRun_of_lists hwf fun j hj => ?_
      have hj' : j < row.length := by simpa using hj
      have hbyte : (row.map GF.byte)[j] = (entryAt (row :: m) 0 j).byte := by simp [entryAt, entry, hj']
      rw [cellKey_zero_add, hbyte]
      exact h 0 (Nat.succ_pos _) j hj'
    rw [State.writeRows, hfirst]
    refine ih fun i hi j hj => ?_
    rw [Nat.add_assoc, Nat.add_comm 1 i]
    exact h (i + 1) (Nat.succ_lt_succ hi) j hj

end Lists

/-- Writing the first entries of a register array again changes nothing. -/
theorem setPrefix_setPrefix {α : Type} (old new : List α) : setPrefix (setPrefix old new) new = setPrefix old new := by
  refine List.ext_getElem? fun i => ?_
  rw [setPrefix_getElem?, setPrefix_length, setPrefix_getElem?]
  split <;> rfl

end Sys2Proof.Machine
end

section
/-! PROOFS. Decoding is stateless (R193): the result is a function of the shape and the accumulated bytes, and the
command writes neither, so running it again writes the same result over itself. -/

open Sys2Proof Sys2Proof.Certificates

namespace Sys2Proof.Machine

/-! ### What the result depends on -/

/-- Two units with the same shape and the same accumulated packets (R193). -/
structure SameAccumulated (s t : State) : Prop where
  k : s.dec.k = t.dec.k
  m : s.dec.m = t.dec.m
  rows : s.dec.rows = t.dec.rows
  bytes : ∀ r < s.dec.rows.toNat, ∀ j < s.dec.width, cell s .dpkt r j = cell t .dpkt r j

section SameAccumulated

variable {s t : State} (h : SameAccumulated s t)
include h

theorem SameAccumulated.accumulated : s.accumulated = t.accumulated := by
  have hwidth : t.dec.width = s.dec.width := by rw [DecRegs.width, DecRegs.width, h.k, h.m]
  rw [State.accumulated, State.accumulated, hwidth, ← h.rows]
  refine List.map_congr_left fun r hr => congrArg _ (List.map_congr_left fun j hj => ?_)
  rw [cellKey_zero_add]
  exact h.bytes r (List.mem_range.1 hr) j (List.mem_range.1 hj)

theorem SameAccumulated.reduce : reduce s.dec.k.toNat s.accumulated = reduce t.dec.k.toNat t.accumulated := by
  rw [h.k, h.accumulated]

theorem SameAccumulated.classes : s.classes = t.classes := by
  rw [State.classes, State.classes, h.reduce, h.k]

theorem SameAccumulated.reducedRow (r : Nat) : s.reducedRow r = t.reducedRow r := by
  rw [State.reducedRow, State.reducedRow, h.reduce]

theorem SameAccumulated.classOf (r : Nat) : s.classOf r = t.classOf r := by
  rw [State.classOf, State.classOf, h.reducedRow, h.k]

end SameAccumulated

/-! ### The same command again -/

section Again

variable {s : State} (h : s.Inv) (sel : List Nat)
include h

/-- A decoding command writes neither the shape nor DPKT (R187). -/
theorem State.Inv.sameAccumulated_decoded : SameAccumulated (s.decoded sel) s :=
  ⟨rfl, rfl, rfl, fun _ _ _ _ => h.decoded_sameBytesBut sel .dpkt _ (by simp)⟩

variable (hk : s.dec.k ≠ 0#5)
include hk

/-- The rows of the result are in DRES already (R190, R193). -/
theorem State.Inv.decoded_writeRows (ht : (s.decoded sel).Inv) :
    (s.decoded sel).writeRows 0 (reduce s.dec.k.toNat s.accumulated).1 = s.decoded sel := by
  obtain ⟨hrows, hwidth⟩ := s.accumulated_shape
  obtain ⟨hlen, hwidth', -⟩ := reduce_shape s.dec.k.toNat s.dec.width s.accumulated hwidth
  refine State.writeRows_of_lists (ht.memories .dres).1 fun i hi j hj => ?_
  rw [List.getD_eq_getElem _ _ hi, hwidth' _ (List.getElem_mem hi)] at hj
  rw [Nat.zero_add]
  refine ⟨State.lists_writeRows (s := s) hwidth' (Nat.zero_le i) (by omega) hj, ?_⟩
  exact h.decoded_cell hk sel (by omega) hj

/-- The result written over itself (R193). -/
theorem State.Inv.decoded_decoded (ht : (s.decoded sel).Inv) : (s.decoded sel).decoded sel = s.decoded sel := by
  have hsame := h.sameAccumulated_decoded sel
  have hdec : ((s.decoded sel).decoded sel).dec = (s.decoded sel).dec := by
    rw [State.decoded_dec, hsame.reduce, hsame.classes, State.decoded_dec]
    simp only [DecRegs.withResult, DecRegs.withSelection, setPrefix_setPrefix]
  have hrest : (s.decoded sel).decoded sel =
      okAfter (((s.decoded sel).writeRows 0 (reduce (s.decoded sel).dec.k.toNat (s.decoded sel).accumulated).1).setDec
        ((s.decoded sel).decoded sel).dec) ((s.decoded sel).decoded sel).dec.nsucc.toNat := rfl
  rw [hrest, hsame.reduce, h.decoded_writeRows sel hk ht, hdec]
  rfl

end Again

/-! ### Two units -/

section TwoUnits

variable {s t : State} (h : SameAccumulated s t) (sel : List Nat)
include h

/-- The counts of the result, and so the answer (R190, R193). -/
theorem SameAccumulated.decoded_counts :
    (s.decoded sel).response = (t.decoded sel).response ∧ (s.decoded sel).dec.resRows = (t.decoded sel).dec.resRows ∧
      (s.decoded sel).dec.rank = (t.decoded sel).dec.rank ∧ (s.decoded sel).dec.nsucc = (t.decoded sel).dec.nsucc ∧
      (s.decoded sel).dec.nred = (t.decoded sel).dec.nred ∧ (s.decoded sel).dec.nsel = (t.decoded sel).dec.nsel := by
  simp only [State.decoded_response, State.decoded_dec, DecRegs.withResult, DecRegs.withSelection, h.classes, h.reduce,
    and_self]

variable (hs : s.Inv) (ht : t.Inv)
include hs ht

/-- A row of the result: its class, its position and its bytes (R190, R193). -/
theorem SameAccumulated.decoded_row (hk : s.dec.k ≠ 0#5) {r : Nat} (hr : r < s.dec.rows.toNat) :
    succAt (s.decoded sel) r = succAt (t.decoded sel) r ∧ redAt (s.decoded sel) r = redAt (t.decoded sel) r ∧
      pivAt (s.decoded sel) r = pivAt (t.decoded sel) r ∧
      ∀ j < s.dec.width, cell (s.decoded sel) .dres r j = cell (t.decoded sel) .dres r j := by
  have hr' : r < t.dec.rows.toNat := h.rows ▸ hr
  have hk' : t.dec.k ≠ 0#5 := h.k ▸ hk
  rw [hs.decoded_succAt sel hr, ht.decoded_succAt sel hr', hs.decoded_redAt sel hr, ht.decoded_redAt sel hr',
    hs.decoded_pivAt sel hr, ht.decoded_pivAt sel hr', h.classOf]
  refine ⟨rfl, rfl, rfl, fun j hj => ?_⟩
  have hj' : j < t.dec.width := by rwa [DecRegs.width, ← h.k, ← h.m]
  rw [hs.decoded_cell hk sel hr hj, ht.decoded_cell hk' sel hr' hj', h.reducedRow]

/-- The listed rows (R192, R193). -/
theorem SameAccumulated.decoded_sel (hlen : sel.length ≤ s.dec.rows.toNat) {j : Nat}
    (hj : j < (s.decoded sel).dec.nsel.toNat) : (s.decoded sel).dec.sel[j]? = (t.decoded sel).dec.sel[j]? := by
  have hlen' : sel.length ≤ t.dec.rows.toNat := h.rows ▸ hlen
  have hrows := hs.decoder.rows
  have hrows' := ht.decoder.rows
  have hsel := hs.decoder.selLength
  have hsel' := ht.decoder.selLength
  have hj : j < sel.length := by
    have hnsel : (BitVec.ofNat 8 sel.length).toNat ≤ sel.length := by
      rw [BitVec.toNat_ofNat]
      exact Nat.mod_le ..
    exact lt_of_lt_of_le hj hnsel
  have hentry {u : State} (hroom : sel.length ≤ u.dec.sel.length) :
      (u.decoded sel).dec.sel[j]? = (sel.map (BitVec.ofNat 8))[j]? :=
    (setPrefix_getElem? u.dec.sel _ j).trans (if_pos ⟨by omega, by rwa [List.length_map]⟩)
  rw [hentry (by omega), hentry (by omega)]

end TwoUnits

/-- Settles O42: one function of the shape and the accumulated bytes gives every part of the result. -/
theorem decodingIsStateless : Obligations.DecodingIsStateless := by
  intro i s₁ s₂ t₁ t₂ hi h₁ h₂ _ hk₁ hk hm hrows hbytes ht₁ ht₂
  obtain ⟨sel, hlen, hexec⟩ := exists_selection hi
  have hsame : SameAccumulated s₁ s₂ := ⟨hk, hm, hrows, hbytes⟩
  have hlen : (sel s₁.classes).length ≤ s₁.dec.rows.toNat := (hlen _).trans_eq s₁.classes_length
  have hinv₁ := exec_inv h₁ ht₁
  obtain rfl : s₁.decoded (sel s₁.classes) = t₁ := Host.Outcome.next.inj ((hexec s₁ hk₁).symm.trans ht₁)
  obtain rfl : s₂.decoded (sel s₁.classes) = t₂ := by
    rw [hsame.classes]
    exact Host.Outcome.next.inj ((hexec s₂ (hk ▸ hk₁)).symm.trans ht₂)
  obtain ⟨hresponse, hresRows, hrank, hnsucc, hnred, hnsel⟩ := hsame.decoded_counts (sel s₁.classes)
  refine ⟨hresponse, hresRows, hrank, hnsucc, hnred, hnsel, fun r hr => ?rows,
    fun j hj => hsame.decoded_sel _ h₁ h₂ hlen hj, ?again⟩
  case rows =>
    rw [s₁.decoded_resRows] at hr
    exact hsame.decoded_row _ h₁ h₂ hk₁ hr
  case again =>
    have hclasses := (h₁.sameAccumulated_decoded (sel s₁.classes)).classes
    rw [hexec (s₁.decoded (sel s₁.classes)) hk₁, hclasses, h₁.decoded_decoded _ hk₁ hinv₁]

end Sys2Proof.Machine
end

section
/-! PROOFS. The session unit but for SFETCH and SADV (45_session.md R214 to R216, R218, R220 to R222): CFGSET and CFGLOAD
write the configuration, SSTART and SSTOP make and clear the session, and SGENC, SLAST and SDONE ask it. -/

open Sys2Proof Sys2Proof.Certificates

namespace Sys2Proof.Machine

/-! ### CFGSET and CFGLOAD -/

theorem CfgRegs.setField_eq_none (x : CfgRegs) {sel : Byte} (v : Byte) (h : 2 < sel.toNat) :
    x.setField sel v = none := by
  rcases x.setField_cases sel v with ⟨rfl, -⟩ | ⟨rfl, -⟩ | ⟨rfl, -⟩ | ⟨-, hnone⟩
  · exact absurd h (by decide)
  · exact absurd h (by decide)
  · exact absurd h (by decide)
  · exact hnone

theorem exec_cfgset_of_none {a b : Byte} {s : State} (h : s.cfg.setField a b = none) :
    exec (.cfgset a b) s = .next (errAfter s 1) := by
  change execCfgset a b s = _
  rw [execCfgset, h]
  exact congrArg _ (s.takeError_eq_errAfter .validationError)

theorem exec_cfgload (s : State) :
    exec .cfgload s = .next (okAfter (s.setCfg { s.cfg with loaded := true }) 0) := rfl

/-- The opcode 0x71 is CFGLOAD's alone (R84). -/
theorem eq_cfgload_of_hasOpcode {i : Instr} (h : HasOpcode [0x71#8] i) : i = .cfgload := by
  cases i with
  | cfgload => rfl
  | _ => simp [HasOpcode, Instr.row] at h

/-- No command but CFGLOAD writes CFG_LOADED (R35), and CFGLOAD sets it: once set it stays (R216). -/
theorem exec_keeps_loaded {i : Instr} {s t : State} (hloaded : s.cfg.loaded = true) (ht : exec i s = .next t) :
    t.cfg.loaded = true := by
  obtain ⟨r, hr, heff⟩ := exec_effect i s
  obtain rfl : r.settle = t := Host.Outcome.next.inj (hr.symm.trans ht)
  by_cases hkept : r.settle.cfg.loaded = s.cfg.loaded
  · exact hkept.trans hloaded
  · rw [Reply.settle_cfg] at hkept
    obtain rfl := eq_cfgload_of_hasOpcode (heff.config.loaded hkept)
    rw [← Host.Outcome.next.inj ((exec_cfgload s).symm.trans ht)]
    rfl

/-- Settles O43: each selector names its register, and every command keeps CFG_LOADED once it is set. -/
theorem configurationCommands : Obligations.ConfigurationCommands := fun a b s =>
  ⟨hasWord_row_fields (.cfgset a b), hasWord_row_fields .cfgload, rfl, rfl, rfl,
    fun ha => exec_cfgset_of_none (s.cfg.setField_eq_none b ha), exec_cfgload s, fun _ _ => exec_keeps_loaded⟩

/-! ### SSTART -/

/-- The state after a successful SSTART, before the response is set (R214). -/
def State.started (s : State) (x : EncRegs) : State :=
  ((s.setEnc x).setCg (.start s.cfg.seed)).setSess (SessRegs.create s.cfg x)

theorem exec_sstart_of_some {s : State} {x : EncRegs} (hloaded : s.cfg.loaded = true) (hfree : s.sess.active = false)
    (hx : s.enc.preprocess s.cfg.k.toNat = some x) :
    exec .sstart s = .next (okAfter (s.started x) x.ngen.toNat) := by
  change execSstart s = _
  rw [execSstart, if_neg (by simp [hloaded, hfree]), hx]
  rfl

theorem exec_sstart_of_refused {s : State}
    (h : s.cfg.loaded = false ∨ s.sess.active = true ∨ s.enc.preprocess s.cfg.k.toNat = none) :
    exec .sstart s = .next (errAfter s 1) := by
  have herr : Reply.complete (.raise s .validationError) = .next (errAfter s 1) :=
    congrArg _ (s.takeError_eq_errAfter .validationError)
  change execSstart s = _
  rw [execSstart, ← herr]
  split
  · rfl
  · next hopen =>
    have hnone : s.enc.preprocess s.cfg.k.toNat = none := by
      rcases h with hunloaded | hactive | hnone
      · exact absurd (.inl hunloaded) hopen
      · exact absurd (.inr hactive) hopen
      · exact hnone
    rw [hnone]

/-- Settles O44: the registers that `Preprocess` captures are those of ENCPREP, and its two tests come behind SSTART's
own. -/
theorem sstartCreatesTheSession : Obligations.SstartCreatesTheSession := by
  intro s
  refine ⟨hasWord_row_fields .sstart, fun hloaded hfree hk1 hk16 hlen => ?created, fun h => ?refused⟩
  case created =>
    rw [exec_sstart_of_some hloaded hfree (preprocess_of_equalLengths hk1 hk16 hlen), preprocessed_ngen s hk1,
      State.started, SessRegs.create, BitVec.ofNat_toNat]
    rfl
  case refused =>
    refine exec_sstart_of_refused (h.imp_right (.imp_right fun hprep => preprocess_eq_none ?_))
    exact hprep.imp_left (congrArg BitVec.toNat)

/-! ### SSTOP -/

/-- The state after SSTOP, before the response is set (R218). -/
def State.stopped (s : State) : State :=
  ((s.setSess SessRegs.absent).setEnc { s.enc with nfrag := 0#8, valid := false }).setCg (.start s.cg.seed)

theorem exec_sstop (s : State) : exec .sstop s = .next (okAfter s.stopped 0) := rfl

/-- What SSTOP clears stays clear, and the seed that it restarts from is kept (R218). -/
theorem State.okAfter_stopped_again (s : State) :
    okAfter (okAfter s.stopped 0).stopped 0 = okAfter s.stopped 0 := rfl

/-- Settles O47: SSTOP tests nothing, and its registers are already as it would leave them the second time. -/
theorem sstopClearsTheSession : Obligations.SstopClearsTheSession := by
  intro s t
  refine ⟨hasWord_row_fields .sstop, exec_sstop s, fun ht => ?_⟩
  obtain rfl : okAfter s.stopped 0 = t := Host.Outcome.next.inj ((exec_sstop s).symm.trans ht)
  rw [exec_sstop, State.okAfter_stopped_again]

/-! ### SGENC, SLAST and SDONE -/

theorem SessRegs.genComplete_iff (x : SessRegs) :
    x.genComplete = true ↔
      min (x.k.toNat + x.red.toNat) (x.totalFrags.toNat - x.curGen.toNat * x.k.toNat + x.red.toNat) ≤
        x.curFrag.toNat :=
  decide_eq_true_iff

theorem SessRegs.lastGen_iff (x : SessRegs) :
    x.lastGen = true ↔ x.genCount.toNat ≤ x.curGen.toNat + 1 :=
  decide_eq_true_iff

section Ask

variable {s : State} (p : SessRegs → Bool)

theorem State.askSession_of_active (h : s.sess.active = true) :
    (s.askSession p).complete = .next (okAfter s (p s.sess).toNat) := by
  rw [State.askSession, if_neg (by simp [h]), bitVal_eq_toNat]
  rfl

theorem State.askSession_of_absent (h : s.sess.active = false) :
    (s.askSession p).complete = .next (errAfter s 1) := by
  rw [State.askSession, if_pos h]
  exact congrArg _ (s.takeError_eq_errAfter .validationError)

end Ask

/-- Settles O48: the three commands ask one session for three predicates, two of which are those given. -/
theorem sessionPredicateCommands : Obligations.SessionPredicateCommands := by
  intro s complete last hcomplete hlast
  obtain rfl : s.sess.genComplete = complete :=
    Bool.eq_iff_iff.2 (s.sess.genComplete_iff.trans hcomplete.symm)
  obtain rfl : s.sess.lastGen = last := Bool.eq_iff_iff.2 (s.sess.lastGen_iff.trans hlast.symm)
  exact ⟨hasWord_row_fields .sgenc, hasWord_row_fields .slast, hasWord_row_fields .sdone,
    fun h => ⟨State.askSession_of_active _ h, State.askSession_of_active _ h, State.askSession_of_active _ h⟩,
    fun h => ⟨State.askSession_of_absent _ h, State.askSession_of_absent _ h, State.askSession_of_absent _ h⟩⟩

end Sys2Proof.Machine
end

section
/-! PROOFS. SFETCH (45_session.md R217): its plan passes or fails the validation tests as R217 lists them, and its one
packet is coded and described as ENCPRE's are. -/

open Sys2Proof Sys2Proof.Certificates

namespace Sys2Proof.Machine

/-- The validation tests of SFETCH as R217 lists them, the budget of R212 written out. -/
theorem sfetchPlan_refused_iff (s : State) :
    (sfetchPlan s).refused = true ↔
      s.sess.active = false ∨
      min (s.sess.k.toNat + s.sess.red.toNat)
        (s.sess.totalFrags.toNat - s.sess.curGen.toNat * s.sess.k.toNat + s.sess.red.toNat) ≤ s.sess.curFrag.toNat ∨
      s.enc.valid = false ∨ s.enc.ngen.toNat ≤ s.enc.gen.toNat ∨ s.sess.curFrag = 255#8 := by
  rw [← SessRegs.genComplete_iff]
  exact decide_eq_true_iff

theorem sfetchPlan_refused_eq_false {s : State} (hactive : s.sess.active = true)
    (hroom : s.sess.curFrag.toNat <
      min (s.sess.k.toNat + s.sess.red.toNat)
        (s.sess.totalFrags.toNat - s.sess.curGen.toNat * s.sess.k.toNat + s.sess.red.toNat))
    (hvalid : s.enc.valid = true) (hgen : s.enc.gen.toNat < s.enc.ngen.toNat) (htop : s.sess.curFrag ≠ 255#8) :
    (sfetchPlan s).refused = false := by
  rw [← Bool.not_eq_true, sfetchPlan_refused_iff]
  rintro (h | h | h | h | h)
  · exact absurd (h.symm.trans hactive) (by decide)
  · exact absurd hroom (not_lt.2 h)
  · exact absurd (h.symm.trans hvalid) (by decide)
  · exact absurd hgen (not_lt.2 h)
  · exact htop h

/-- The bookkeeping names the generation by ENC_GEN, which holds its index, and one packet moves the generator by the
generation's size (R32, R217). -/
theorem coded_sfetch_sameUnits (s : State) (x : SessRegs) (v : Nat) :
    SameUnits
      { s with
        cg :=
          { s.cg with
            state := lfsrStep^[s.enc.genSize s.enc.gen.toNat] s.cg.state
            count := BitVec.ofNat 8 (s.cg.count.toNat + s.enc.genSize s.enc.gen.toNat) }
        enc :=
          { s.enc with
            cpkn := 1#8
            cpkg := BitVec.ofNat 5 (s.enc.genSize s.enc.gen.toNat)
            cpkm := s.enc.m
            cpkgen := s.enc.gen
            cpkpre := (s.coded s.enc.gen.toNat 1 x v).enc.cpkpre
            cpkpost := (s.coded s.enc.gen.toNat 1 x v).enc.cpkpost }
        sess := x }
      (s.coded s.enc.gen.toNat 1 x v) := by
  have hunits := s.coded_sameUnits s.enc.gen.toNat 1 x v
  have hindex : BitVec.ofNat 8 s.enc.gen.toNat = s.enc.gen := by rw [BitVec.ofNat_toNat, BitVec.setWidth_eq]
  have henc := s.coded_enc s.enc.gen.toNat 1 x v
  have hcg := s.coded_cg s.enc.gen.toNat 1 x v
  rw [hindex] at henc
  rw [Nat.one_mul] at hcg
  exact { hunits with cg := hcg, enc := henc }

/-- Settles O45: SFETCH's plan passes or fails the tests as the statement says, and its one packet is coded into
slot 0. -/
theorem sfetchReturnsOnePacket : Obligations.SfetchReturnsOnePacket := by
  intro s
  refine ⟨hasWord_row_fields .sfetch, fun hinv hactive hroom hgen htop hcycle => ?fetched, fun h => ?refused,
    fun hactive hroom hvalid hgen htop hcycle => ?exhausted⟩
  case fetched =>
    have hpass := sfetchPlan_refused_eq_false hactive hroom (hinv.valid_of_active hactive) hgen htop
    have hfits : s.cg.count.toNat + 1 * s.enc.genSize s.enc.gen.toNat ≤ 255 := by rwa [Nat.one_mul]
    obtain ⟨-, -, ⟨hslot, -⟩, -⟩ := hinv.params
    refine ⟨_, (exec_sfetch_eq s).trans (congrArg _ (State.codePackets_of_fits hpass hfits)),
      congrArg (some <| okWord ·) (toNat_add_one_of_ne_top htop), ?packet,
      fun j hj => s.coded_states_beyond _ _ _ _ hj, s.coded_errlog .., coded_sfetch_sameUnits ..,
      s.coded_sameBytesBut _ _ _ _⟩
    case packet =>
      have hpacket := State.coded_packetAt s.enc.gen.toNat ((sfetchPlan s).session s.sess) (sfetchPlan s).value hinv
        hslot Nat.one_pos
      rwa [Nat.zero_mul, Function.iterate_zero_apply] at hpacket
  case refused =>
    rw [exec_sfetch_eq, State.codePackets_of_refused ((sfetchPlan_refused_iff s).2 h)]
  case exhausted =>
    have hpass := sfetchPlan_refused_eq_false hactive hroom hvalid hgen htop
    have hover : 255 < s.cg.count.toNat + 1 * s.enc.genSize s.enc.gen.toNat := by rwa [Nat.one_mul]
    rw [exec_sfetch_eq, State.codePackets_of_exhausted hpass hover]

end Sys2Proof.Machine
end

section
/-! PROOFS. COBS decoding (46_framecodec.md R245): the loop reads its input run by run, and gives the empty result exactly
where the input does not read as runs. -/

open Sys2Proof Sys2Proof.Certificates

namespace Sys2Proof.Machine

/-! ### One round -/

section DecodeLoop

variable {fuel : Nat} {d : Byte} {run rest out : List Byte}

@[simp] theorem cobsDecodeLoop_nil (fuel : Nat) (out : List Byte) : cobsDecodeLoop fuel [] out = out := by
  cases fuel <;> rfl

/-- A code of zero, or a run past the end, discards everything (R245). -/
theorem cobsDecodeLoop_malformed (h : d = 0#8 ∨ rest.length + 1 < d.toNat) :
    cobsDecodeLoop (fuel + 1) (d :: rest) out = [] := by
  rw [cobsDecodeLoop, if_pos h]

/-- A code that its run follows is not malformed (R245). -/
theorem not_malformed_of_run (h : run.length + 1 = d.toNat) (rest : List Byte) :
    ¬ (d = 0#8 ∨ (run ++ rest).length + 1 < d.toNat) := by
  rw [not_or, List.length_append]
  refine ⟨fun h0 => ?_, by omega⟩
  rw [h0] at h
  exact absurd h (Nat.succ_ne_zero _)

/-- The last run joins the output (R245). -/
theorem cobsDecodeLoop_last (h : run.length + 1 = d.toNat) :
    cobsDecodeLoop (fuel + 1) (d :: run) out = out ++ run := by
  have hok := not_malformed_of_run h []
  rw [List.append_nil] at hok
  have hlen : d.toNat - 1 = run.length := by omega
  simp [cobsDecodeLoop, if_neg hok, hlen]

/-- A run before the end joins the output, with a zero behind it unless its code is 0xFF (R245). -/
theorem cobsDecodeLoop_more (h : run.length + 1 = d.toNat) (hrest : rest ≠ []) :
    cobsDecodeLoop (fuel + 1) (d :: run ++ rest) out =
      cobsDecodeLoop fuel rest (out ++ run ++ if d.toNat < 0xFF then [0x00#8] else []) := by
  have hlen : d.toNat - 1 = run.length := by omega
  rw [List.cons_append, cobsDecodeLoop, if_neg (not_malformed_of_run h rest)]
  by_cases hfull : d.toNat < 0xFF <;> simp [hlen, hrest, hfull]

/-- The three ways in which a round of the decoder finds its input (R245). -/
theorem codedRun_cases (d : Byte) (rest : List Byte) :
    (d = 0#8 ∨ rest.length + 1 < d.toNat) ∨ rest.length + 1 = d.toNat ∨
      ∃ run tail, rest = run ++ tail ∧ run.length + 1 = d.toNat ∧ tail ≠ [] := by
  rcases Nat.lt_trichotomy (rest.length + 1) d.toNat with hshort | hlast | hmore
  · exact .inl (.inr hshort)
  · exact .inr (.inl hlast)
  · by_cases h0 : d = 0#8
    · exact .inl (.inl h0)
    · have hpos : 0 < d.toNat := Nat.pos_of_ne_zero fun h => h0 (BitVec.eq_of_toNat_eq h)
      refine .inr (.inr ⟨rest.take (d.toNat - 1), rest.drop (d.toNat - 1), (List.take_append_drop ..).symm, ?_, ?_⟩)
      · rw [List.length_take]; omega
      · rw [Ne, List.drop_eq_nil_iff]; omega

end DecodeLoop

/-! ### Run by run -/

/-- Where the input reads as runs, the loop adds what they give to its output. -/
theorem cobsDecodeLoop_of_runs {e out : List Byte} (h : CobsRuns e out) {fuel : Nat} (hfuel : e.length ≤ fuel)
    (acc : List Byte) : cobsDecodeLoop fuel e acc = acc ++ out := by
  induction h generalizing fuel acc with
  | none => simp
  | last d run hd =>
    obtain ⟨fuel, rfl⟩ := Nat.exists_eq_add_of_le' (Nat.one_le_of_lt hfuel)
    exact cobsDecodeLoop_last hd
  | more d run rest out hd hrest _ ih =>
    rw [List.length_append, List.length_cons] at hfuel
    obtain ⟨fuel, rfl⟩ := Nat.exists_eq_add_of_le' (show 1 ≤ fuel by omega)
    rw [cobsDecodeLoop_more hd hrest, ih (by omega)]
    split <;> simp

theorem cobsDecode_of_runs {e out : List Byte} (h : CobsRuns e out) : cobsDecode e = out :=
  cobsDecodeLoop_of_runs h le_rfl []

/-- An input reads as runs, or the loop meets the place where it does not. -/
theorem runs_or_cobsDecodeLoop_eq_nil (fuel : Nat) (e : List Byte) (hfuel : e.length ≤ fuel) :
    (∃ out, CobsRuns e out) ∨ ∀ acc, cobsDecodeLoop fuel e acc = [] := by
  induction fuel generalizing e with
  | zero => exact .inl ⟨[], List.eq_nil_of_length_eq_zero (Nat.le_zero.1 hfuel) ▸ .none⟩
  | succ fuel ih =>
    match e with
    | [] => exact .inl ⟨[], .none⟩
    | d :: rest =>
      rcases codedRun_cases d rest with hbad | hlast | ⟨run, tail, rfl, hrun, htail⟩
      · exact .inr fun acc => cobsDecodeLoop_malformed hbad
      · exact .inl ⟨rest, .last d rest hlast⟩
      · rw [List.length_cons, List.length_append] at hfuel
        rcases ih tail (by omega) with ⟨out, hout⟩ | hnil
        · exact .inl ⟨_, .more d run tail out hrun htail hout⟩
        · exact .inr fun acc => (cobsDecodeLoop_more hrun htail).trans (hnil _)

/-- Settles O51: the loop follows the runs, and where there are none it stops at a malformed code. -/
theorem cobsDecodeReadsRuns : Obligations.CobsDecodeReadsRuns := by
  refine fun e => ⟨fun out h => cobsDecode_of_runs h, fun h => ?_⟩
  rcases runs_or_cobsDecodeLoop_eq_nil e.length e le_rfl with ⟨out, hout⟩ | hnil
  · exact absurd hout (h out)
  · exact hnil []

end Sys2Proof.Machine
end

section
/-! PROOFS. COBS encoding (46_framecodec.md R243, R253): the encoder writes one block after another, and the blocks of a
sequence have no zero and, read as runs, give the sequence back. -/

open Sys2Proof Sys2Proof.Certificates

namespace Sys2Proof.Machine

/-! ### The blocks of a sequence -/

/-- The code byte of a block: the number of its bytes plus one (R243). -/
def blockCode (run : List Byte) : Byte := BitVec.ofNat 8 (run.length + 1)

/-- `CobsBlocksOf d e`: `e` is the sequence `d` written block by block (R243), as `cobsBlocks` computes it. -/
inductive CobsBlocksOf : List Byte → List Byte → Prop where
  /-- The last block, full or not. -/
  | last (run : List Byte) : 0x00#8 ∉ run → run.length ≤ 254 → CobsBlocksOf run (blockCode run :: run)
  /-- A full block before the end takes no zero with it. -/
  | full (run rest e : List Byte) : 0x00#8 ∉ run → run.length = 254 → rest ≠ [] → CobsBlocksOf rest e →
      CobsBlocksOf (run ++ rest) (blockCode run :: run ++ e)
  /-- A block that a zero ends. -/
  | zero (run rest e : List Byte) : 0x00#8 ∉ run → run.length < 254 → CobsBlocksOf rest e →
      CobsBlocksOf (run ++ 0x00#8 :: rest) (blockCode run :: run ++ e)

theorem blockCode_toNat {run : List Byte} (h : run.length ≤ 254) : (blockCode run).toNat = run.length + 1 := by
  rw [blockCode, BitVec.toNat_ofNat]
  omega

theorem blockCode_ne_zero {run : List Byte} (h : run.length ≤ 254) : blockCode run ≠ 0x00#8 := by
  intro h0
  have hcode := blockCode_toNat h
  rw [h0] at hcode
  exact absurd hcode.symm (Nat.succ_ne_zero _)

theorem blockCode_of_full {run : List Byte} (h : run.length = 254) : blockCode run = 0xFF#8 := by
  rw [blockCode, h]

theorem takeWhile_of_zeroFree {d : List Byte} (h : 0x00#8 ∉ d) : d.takeWhile (· ≠ 0x00#8) = d :=
  List.takeWhile_eq_self_iff.2 fun _ hb => decide_eq_true (ne_of_mem_of_not_mem hb h)

theorem takeWhile_append_zero {run : List Byte} (h : 0x00#8 ∉ run) (rest : List Byte) :
    (run ++ 0x00#8 :: rest).takeWhile (· ≠ 0x00#8) = run := by
  rw [List.takeWhile_append_of_pos fun _ hb => decide_eq_true (ne_of_mem_of_not_mem hb h)]
  simp

/-- A full block before the end. -/
theorem CobsBlocksOf.full_take {d e : List Byte} (hfree : 0x00#8 ∉ d.take 254) (hlong : 254 < d.length)
    (h : CobsBlocksOf (d.drop 254) e) : CobsBlocksOf d (0xFF#8 :: d.take 254 ++ e) := by
  have hlen : (d.take 254).length = 254 := List.length_take_of_le hlong.le
  have hblock := CobsBlocksOf.full _ _ _ hfree hlen (by rw [Ne, List.drop_eq_nil_iff]; omega) h
  rwa [List.take_append_drop, blockCode_of_full hlen] at hblock

/-- With fuel beyond the length, `cobsBlocks` writes the blocks of a sequence. -/
theorem cobsBlocksOf_cobsBlocks {fuel : Nat} {d : List Byte} (hfuel : d.length < fuel) :
    CobsBlocksOf d (cobsBlocks fuel d) := by
  induction fuel generalizing d with
  | zero => exact absurd hfuel (Nat.not_lt_zero _)
  | succ fuel ih =>
    rw [cobsBlocks]
    by_cases hzero : 0x00#8 ∈ d
    · obtain ⟨run, rest, rfl, hfree⟩ := List.eq_append_cons_of_mem hzero
      simp only [takeWhile_append_zero hfree]
      have hlen : (run ++ 0x00#8 :: rest).length = run.length + rest.length + 1 := by simp; omega
      rw [hlen] at hfuel ⊢
      split
      · next hlong =>
        have htake : run.take 254 = (run ++ 0x00#8 :: rest).take 254 := (List.take_append_of_le_length hlong).symm
        rw [if_neg (by omega), htake]
        exact .full_take (htake ▸ fun h => hfree (List.mem_of_mem_take h)) (by omega)
          (ih (by rw [List.length_drop]; omega))
      · next hshort =>
        rw [if_neg (by omega), List.drop_append, List.drop_of_length_le (Nat.le_succ _), Nat.add_sub_cancel_left]
        exact .zero run rest _ hfree (by omega) (ih (by omega))
    · simp only [takeWhile_of_zeroFree hzero, if_true, List.append_nil]
      split
      · next hlong =>
        split
        · next hfull =>
          rw [List.take_of_length_le hfull.le, List.append_nil, ← blockCode_of_full hfull]
          exact .last d hzero hfull.le
        · next hmore =>
          exact .full_take (fun h => hzero (List.mem_of_mem_take h)) (by omega)
            (ih (by rw [List.length_drop]; omega))
      · next hshort => exact .last d hzero (by omega)

/-! ### Blocks without a zero, read back as runs -/

theorem CobsBlocksOf.zero_notMem {d e : List Byte} (h : CobsBlocksOf d e) : 0x00#8 ∉ e := by
  induction h with
  | last run hfree hlen => simpa [hfree] using (blockCode_ne_zero hlen).symm
  | full run rest e hfree hlen _ _ ih =>
    simpa [hfree, ih] using (blockCode_ne_zero hlen.le).symm
  | zero run rest e hfree hlen _ ih =>
    simpa [hfree, ih] using (blockCode_ne_zero hlen.le).symm

theorem CobsBlocksOf.ne_nil {d e : List Byte} (h : CobsBlocksOf d e) : e ≠ [] := by
  cases h <;> simp

/-- Each block is a run, and the zero that a run below the full length implies is the one that ended the block (R253). -/
theorem CobsBlocksOf.runs {d e : List Byte} (h : CobsBlocksOf d e) : CobsRuns e d := by
  induction h with
  | last run _ hlen => exact .last _ run (blockCode_toNat hlen).symm
  | full run rest e _ hlen _ hrest ih =>
    have hcode := blockCode_toNat hlen.le
    have hruns := CobsRuns.more _ run e rest hcode.symm hrest.ne_nil ih
    rwa [if_neg (by omega)] at hruns
  | zero run rest e _ hlen hrest ih =>
    have hcode := blockCode_toNat hlen.le
    have hruns := CobsRuns.more _ run e rest hcode.symm hrest.ne_nil ih
    rwa [if_pos (by omega)] at hruns

/-! ### The encoder, block by block -/

/-- The encoder inside a block (R243): `done` holds the blocks before it, `run` its bytes so far, and its slot is open. -/
def CobsState.inBlock (done run : List Byte) : CobsState :=
  { out := done ++ 0#8 :: run, code := done.length, dist := run.length + 1 }

section InBlock

variable {done run : List Byte} {b : Byte}

theorem CobsState.start_eq_inBlock : CobsState.start = .inBlock [] [] := rfl

/-- The open slot of a block takes the block's code. -/
theorem CobsState.inBlock_backfill (done run : List Byte) :
    (CobsState.inBlock done run).out.set done.length (blockCode run) = done ++ blockCode run :: run := by
  simp [CobsState.inBlock]

theorem CobsState.newSlot_inBlock (done run : List Byte) :
    (CobsState.inBlock done run).newSlot = .inBlock (done ++ blockCode run :: run) [] := by
  calc (CobsState.inBlock done run).newSlot
      = { out := (CobsState.inBlock done run).out.set done.length (blockCode run) ++ [0#8]
          code := (CobsState.inBlock done run).out.length
          dist := 1 } := rfl
    _ = .inBlock (done ++ blockCode run :: run) [] := by
      rw [CobsState.inBlock_backfill]
      simp [CobsState.inBlock]

theorem CobsState.push_inBlock_zero (done run : List Byte) :
    (CobsState.inBlock done run).push 0x00#8 = .inBlock (done ++ blockCode run :: run) [] := by
  rw [CobsState.push, if_pos rfl, CobsState.newSlot_inBlock]

/-- A byte that is not zero joins the block, which it ends where it is byte 254 (R243). -/
theorem CobsState.push_inBlock_of_ne (hb : b ≠ 0x00#8) :
    (CobsState.inBlock done run).push b =
      if run.length = 253 then (CobsState.inBlock done (run ++ [b])).newSlot else .inBlock done (run ++ [b]) := by
  have hjoin : { CobsState.inBlock done run with
      out := (CobsState.inBlock done run).out ++ [b], dist := (CobsState.inBlock done run).dist + 1 } =
      CobsState.inBlock done (run ++ [b]) := by
    simp [CobsState.inBlock]
  have hpush : (CobsState.inBlock done run).push b =
      if (CobsState.inBlock done (run ++ [b])).dist = 0xFF then (CobsState.inBlock done (run ++ [b])).newSlot
      else CobsState.inBlock done (run ++ [b]) := by
    rw [CobsState.push, if_neg hb, ← hjoin]
  exact hpush.trans (if_congr (by simp [CobsState.inBlock]) rfl rfl)

theorem CobsState.foldl_push_inBlock {more : List Byte} (hfree : 0x00#8 ∉ more) (hlen : run.length + more.length < 254) :
    more.foldl CobsState.push (.inBlock done run) = .inBlock done (run ++ more) := by
  induction more generalizing run with
  | nil => simp
  | cons b more ih =>
    rw [List.length_cons] at hlen
    obtain ⟨hb, hmore⟩ := List.ne_and_not_mem_of_not_mem_cons hfree
    rw [List.foldl_cons, CobsState.push_inBlock_of_ne hb.symm, if_neg (by omega), ih hmore (by simp; omega)]
    simp

theorem CobsState.foldl_push_inBlock_full {more : List Byte} (hfree : 0x00#8 ∉ more) (hlen : more.length = 254) :
    more.foldl CobsState.push (.inBlock done []) = .inBlock (done ++ blockCode more :: more) [] := by
  rcases List.eq_nil_or_concat' more with rfl | ⟨init, b, rfl⟩
  · contradiction
  · simp only [List.mem_append, List.mem_singleton, not_or, List.length_append, List.length_singleton] at hfree hlen
    rw [List.foldl_concat, CobsState.foldl_push_inBlock hfree.1 (by simp; omega), List.nil_append,
      CobsState.push_inBlock_of_ne (Ne.symm hfree.2), if_pos (by omega), CobsState.newSlot_inBlock]

theorem CobsState.finish_inBlock (hlen : done.length + run.length ≤ 254) :
    (CobsState.inBlock done run).finish = done ++ blockCode run :: run := by
  have hout : (CobsState.inBlock done run).out.length ≤ Config.cobsOutMax := by
    rw [CobsState.inBlock, List.length_append, List.length_cons]
    exact Nat.succ_le_succ hlen
  rw [CobsState.finish, if_pos hout]
  exact CobsState.inBlock_backfill done run

/-- The slot that a full run of 254 bytes opens is dropped. -/
theorem CobsState.finish_inBlock_dropped (hlen : done.length = 255) : (CobsState.inBlock done []).finish = done := by
  have hout : ¬ (CobsState.inBlock done []).out.length ≤ Config.cobsOutMax := by
    rw [CobsState.inBlock, List.length_append, hlen]; decide
  rw [CobsState.finish, if_neg hout, CobsState.inBlock, List.dropLast_concat]

end InBlock

/-- From the start of a block on, the encoder writes what remains block by block (R243). -/
theorem CobsBlocksOf.foldl_push {d e : List Byte} (h : CobsBlocksOf d e) {done : List Byte}
    (hlen : done.length + d.length ≤ 254) :
    (d.foldl CobsState.push (.inBlock done [])).finish = done ++ e := by
  induction h generalizing done with
  | last run hfree hrun =>
    rcases hrun.lt_or_eq with hshort | hfull
    · rw [CobsState.foldl_push_inBlock hfree (by simpa using hshort), List.nil_append,
        CobsState.finish_inBlock hlen]
    · obtain rfl : done = [] := List.eq_nil_of_length_eq_zero (by omega)
      rw [CobsState.foldl_push_inBlock_full hfree hfull, CobsState.finish_inBlock_dropped (by simp [hfull])]
  | full run rest e _ hrun hrest =>
    rw [List.length_append] at hlen
    have hpos := List.length_pos_iff.2 hrest
    omega
  | zero run rest e hfree hrun _ ih =>
    simp only [List.length_append, List.length_cons] at hlen
    rw [List.foldl_append, CobsState.foldl_push_inBlock hfree (by simpa using hrun), List.foldl_cons, List.nil_append,
      CobsState.push_inBlock_zero, ih (by simp; omega), List.append_assoc]

/-- Encoding is by blocks (R243). -/
theorem cobsEncode_eq_cobsBlocks {d : List Byte} (hd : d.length ≤ 254) :
    cobsEncode d = cobsBlocks (d.length + 1) d := by
  have hblocks := cobsBlocksOf_cobsBlocks (Nat.lt_succ_self d.length)
  rw [cobsEncode, CobsState.start_eq_inBlock, hblocks.foldl_push (by simpa using hd), List.nil_append]

theorem cobsBlocksOf_cobsEncode {d : List Byte} (hd : d.length ≤ 254) : CobsBlocksOf d (cobsEncode d) := by
  rw [cobsEncode_eq_cobsBlocks hd]
  exact cobsBlocksOf_cobsBlocks (Nat.lt_succ_self d.length)

/-- The encoding has no zero byte (R243). -/
theorem zero_notMem_cobsEncode {d : List Byte} (hd : d.length ≤ 254) : 0x00#8 ∉ cobsEncode d :=
  (cobsBlocksOf_cobsEncode hd).zero_notMem

theorem cobsDecode_cobsEncode {d : List Byte} (hd : d.length ≤ 254) : cobsDecode (cobsEncode d) = d :=
  cobsDecode_of_runs (cobsBlocksOf_cobsEncode hd).runs

/-- Settles O50: the encoder writes the blocks, which have no zero and read back as the runs of the input. -/
theorem cobsRoundTrip : Obligations.CobsRoundTrip := fun _ hd =>
  ⟨cobsEncode_eq_cobsBlocks hd, cobsEncode_length hd,
    fun _ hb => ne_of_mem_of_not_mem hb (zero_notMem_cobsEncode hd), cobsDecode_cobsEncode hd⟩

end Sys2Proof.Machine
end

section
/-! PROOFS. COBSENC, COBSDEC and FRBUILD (46_framecodec.md R244, R246, R247): each is a test and one write of FOUT from
index 0, with its length in FOUTN. -/

open Sys2Proof Sys2Proof.Certificates

namespace Sys2Proof.Machine

/-! ### What a codec output leaves -/

@[simp] theorem bytesOf_length (s : State) (sp : Space) (n : Nat) : (bytesOf s sp n).length = n := by
  simp [bytesOf]

theorem bytesOf_getElem (s : State) (sp : Space) {n i : Nat} (h : i < (bytesOf s sp n).length) :
    (bytesOf s sp n)[i] = s.readByte sp i := by
  simp [bytesOf]

/-- The first bytes of a memory are those given, where each of them reads so. -/
theorem bytesOf_eq_of_getD {s : State} {sp : Space} {bs : List Byte}
    (h : ∀ i < bs.length, s.readByte sp i = bs.getD i 0#8) : bytesOf s sp bs.length = bs := by
  refine List.ext_getElem (bytesOf_length ..) fun i hi hi' => ?_
  rw [bytesOf_getElem, h i hi', List.getD_eq_getElem _ _ hi']

section PutFout

variable (s : State) (bs : List Byte) (v : Nat)

theorem State.readByte_putFout_answer {i : Nat} (hi : i < bs.length) :
    ((s.putFout bs).answer v).readByte .fout i = bs.getD i 0#8 := by
  rw [State.readByte_answer, State.readByte_putFout, if_pos ⟨rfl, hi⟩]

/-- The output and its length, and nothing else (R244, R246, R247). -/
theorem State.putFout_answer_fills {n : Nat} (hn : bs.length = n) :
    bytesOf ((s.putFout bs).answer v) .fout n = bs ∧
      SameUnits { s with fc := { s.fc with foutn := BitVec.ofNat 9 n } } ((s.putFout bs).answer v) ∧
      SameBytesBut .fout (fun key => key < n) s ((s.putFout bs).answer v) := by
  subst hn
  refine ⟨bytesOf_eq_of_getD fun _ hi => s.readByte_putFout_answer bs v hi,
    ⟨rfl, rfl, rfl, rfl, rfl, rfl, rfl, rfl, rfl⟩, fun sp key h => ?_⟩
  rw [State.readByte_answer, State.readByte_putFout, if_neg h]

end PutFout

/-! ### COBSENC -/

theorem exec_cobsenc_of_le {a : Byte} (ha : a.toNat ≤ 254) (s : State) :
    exec (.cobsenc a) s = .next ((s.putFout (cobsEncode (bytesOf s .fin a.toNat))).answer (a.toNat + 1)) := by
  change execCobsenc a s = _
  rw [execCobsenc, if_neg (not_lt.2 ha), s.finBytes_eq]
  rfl

theorem exec_cobsenc_of_gt {a : Byte} (ha : 254 < a.toNat) (s : State) : exec (.cobsenc a) s = .next (errAfter s 1) := by
  change execCobsenc a s = _
  rw [execCobsenc, if_pos ha]
  exact congrArg _ (s.takeError_eq_errAfter .validationError)

/-- Settles O52: in range the one write of the encoding, which is one byte longer than its input. -/
theorem cobsencFillsTheOutputBuffer : Obligations.CobsencFillsTheOutputBuffer := by
  intro a s
  refine ⟨hasWord_row_fields (.cobsenc a), fun ha => ?filled, fun ha => exec_cobsenc_of_gt (ha ▸ by decide) s⟩
  case filled =>
    have hlen : (cobsEncode (bytesOf s .fin a.toNat)).length = a.toNat + 1 := by
      rw [cobsEncode_length (by rwa [bytesOf_length]), bytesOf_length]
    exact ⟨_, exec_cobsenc_of_le ha s, rfl, rfl, s.putFout_answer_fills _ _ hlen⟩

/-! ### COBSDEC -/

theorem exec_cobsdec_of_ne_nil {a : Byte} {s : State} (h : cobsDecode (bytesOf s .fin a.toNat) ≠ []) :
    exec (.cobsdec a) s =
      .next ((s.putFout (cobsDecode (bytesOf s .fin a.toNat))).answer
        (cobsDecode (bytesOf s .fin a.toNat)).length) := by
  obtain ⟨b, bs, hout⟩ := List.exists_cons_of_ne_nil h
  change execCobsdec a s = _
  rw [execCobsdec, s.finBytes_eq, hout]
  rfl

theorem exec_cobsdec_of_nil {a : Byte} {s : State} (h : cobsDecode (bytesOf s .fin a.toNat) = []) :
    exec (.cobsdec a) s = .next (errAfter { s with fc := { s.fc with foutn := 0#9 } } 4) := by
  change execCobsdec a s = _
  rw [execCobsdec, s.finBytes_eq, h]
  exact congrArg _ (State.takeError_eq_errAfter _ .framingError)

/-- Settles O53: a decoded sequence is shorter than its input, so FOUTN holds its length. -/
theorem cobsdecFillsTheOutputBuffer : Obligations.CobsdecFillsTheOutputBuffer := by
  intro a s
  refine ⟨hasWord_row_fields (.cobsdec a), fun hout => ?filled, exec_cobsdec_of_nil⟩
  case filled =>
    have hexec := exec_cobsdec_of_ne_nil hout
    have hlen := cobsDecode_length (bytesOf s .fin a.toNat)
    generalize cobsDecode (bytesOf s .fin a.toNat) = out at hexec hlen ⊢
    have hfoutn : ((s.putFout out).answer out.length).fc.foutn.toNat = out.length := by
      have ha := a.isLt
      rw [bytesOf_length] at hlen
      exact Nat.mod_eq_of_lt (by omega)
    exact ⟨_, hexec, rfl, rfl, hfoutn, hfoutn.symm ▸ s.putFout_answer_fills out _ rfl⟩

/-! ### The wire frame -/

/-- The content that a frame codes (R240): CRC, length, payload. -/
def frameContent (p : List Byte) : List Byte := crcBitwise p :: BitVec.ofNat 8 p.length :: p

/-- The bytes of a wire frame between its start byte and its end byte (R240). -/
def frameBody (p : List Byte) : List Byte := BitVec.ofNat 8 (p.length + 3) :: cobsEncode (frameContent p)

theorem wireFrame_eq (p : List Byte) : wireFrame p = 0xFF#8 :: frameBody p ++ [0x00#8] := by
  rw [wireFrame, crc8_eq_crcBitwise]
  rfl

section Frame

variable {p : List Byte} (hp : p.length ≤ 252)
include hp

theorem frameContent_length_le : (frameContent p).length ≤ 254 := by
  simp only [frameContent, List.length_cons]
  omega

theorem frameBody_length : (frameBody p).length = p.length + 4 := by
  rw [frameBody, List.length_cons, cobsEncode_length (frameContent_length_le hp)]
  rfl

/-- The length byte is at least 3, and COBS gives no zero (R243, R247). -/
theorem zero_notMem_frameBody : 0x00#8 ∉ frameBody p := by
  have hdeclared : BitVec.ofNat 8 (p.length + 3) ≠ 0x00#8 := by
    intro h
    have hmod : (p.length + 3) % 256 = 0 := congrArg BitVec.toNat h
    omega
  simpa [frameBody, hdeclared.symm] using zero_notMem_cobsEncode (frameContent_length_le hp)

/-- The coded part of a frame stands behind its start byte and its length byte (R240). -/
theorem wireFrame_getD_coded {i : Nat} (hi : i < p.length + 3) :
    (wireFrame p).getD (2 + i) 0#8 = (cobsEncode (frameContent p)).getD i 0#8 := by
  have hlen : (cobsEncode (frameContent p)).length = p.length + 3 := cobsEncode_length (frameContent_length_le hp)
  rw [wireFrame_eq, frameBody, Nat.add_comm 2 i]
  exact List.getD_append _ _ _ _ (by simp only [List.length_cons, hlen]; omega)

/-- The one zero of a frame is its last byte (R247). -/
theorem wireFrame_getD_eq_zero_iff {i : Nat} (hi : i < p.length + 6) :
    (wireFrame p).getD i 0#8 = 0x00#8 ↔ i = p.length + 5 := by
  have hfree : 0x00#8 ∉ 0xFF#8 :: frameBody p := List.not_mem_cons_of_ne_of_not_mem (by decide) (zero_notMem_frameBody hp)
  have hlen : (0xFF#8 :: frameBody p).length = p.length + 5 := by rw [List.length_cons, frameBody_length hp]
  rw [wireFrame_eq]
  rcases Nat.lt_succ_iff_lt_or_eq.1 hi with hbefore | rfl
  · rw [List.getD_append _ _ _ _ (by omega), List.getD_eq_getElem _ _ (by omega)]
    exact iff_of_false (fun h => hfree (h ▸ List.getElem_mem _)) (by omega)
  · rw [List.getD_append_right _ _ _ _ (by omega), hlen]
    simp

end Frame

/-! ### FRBUILD -/

theorem exec_frbuild_of_le {a : Byte} (ha : a.toNat ≤ 252) (s : State) :
    exec (.frbuild a) s = .next ((s.putFout (wireFrame (bytesOf s .fin a.toNat))).answer (a.toNat + 6)) := by
  change execFrbuild a s = _
  rw [execFrbuild, if_neg (not_lt.2 ha), s.finBytes_eq]
  rfl

theorem exec_frbuild_of_gt {a : Byte} (ha : 252 < a.toNat) (s : State) : exec (.frbuild a) s = .next (errAfter s 1) := by
  change execFrbuild a s = _
  rw [execFrbuild, if_pos ha]
  exact congrArg _ (s.takeError_eq_errAfter .validationError)

/-- Settles O54: in range the one write of the frame, byte by byte. -/
theorem frbuildBuildsTheWireFrame : Obligations.FrbuildBuildsTheWireFrame := by
  intro a s
  refine ⟨hasWord_row_fields (.frbuild a), fun ha => ?built, fun ha => exec_frbuild_of_gt ha s⟩
  case built =>
    have hexec := exec_frbuild_of_le ha s
    have hpn : (bytesOf s .fin a.toNat).length = a.toNat := bytesOf_length ..
    generalize bytesOf s .fin a.toNat = p at hexec hpn ⊢
    have hp : p.length ≤ 252 := hpn.trans_le ha
    have hlen : (wireFrame p).length = a.toNat + 6 := by rw [wireFrame_length hp, hpn]
    have hread : ∀ i < a.toNat + 6,
        ((s.putFout (wireFrame p)).answer (a.toNat + 6)).readByte .fout i = (wireFrame p).getD i 0#8 :=
      fun i hi => s.readByte_putFout_answer _ _ (hlen.symm ▸ hi)
    obtain ⟨-, hunits, hbytes⟩ := s.putFout_answer_fills (wireFrame p) (a.toNat + 6) hlen
    have ha3 : BitVec.ofNat 8 (p.length + 3) = a + 3#8 := by
      rw [hpn, BitVec.ofNat_add, BitVec.ofNat_toNat, BitVec.setWidth_eq]
    have hcontent : frameContent p = crcBitwise p :: a :: p := by
      rw [frameContent, hpn, BitVec.ofNat_toNat, BitVec.setWidth_eq]
    refine ⟨_, hexec, rfl, rfl, ?start, ?declared, ?coded, fun i hi => ?zero, hunits, hbytes⟩
    case start => rw [hread 0 (by omega)]; rfl
    case declared =>
      rw [hread 1 (by omega), ← ha3, wireFrame_eq]
      rfl
    case coded =>
      have hcoded : (cobsEncode (crcBitwise p :: a :: p)).length = a.toNat + 3 := by
        rw [← hcontent, cobsEncode_length (frameContent_length_le hp), frameContent, ← hpn]
        rfl
      refine List.ext_getElem (by rw [List.length_map, List.length_range, hcoded]) fun i hi hi' => ?_
      rw [List.getElem_map, List.getElem_range, hread _ (by omega), wireFrame_getD_coded hp (by omega), hcontent,
        List.getD_eq_getElem _ _ hi']
    case zero => rw [hread i hi, wireFrame_getD_eq_zero_iff hp (hpn.symm ▸ hi), hpn]

end Sys2Proof.Machine
end

section
/-! PROOFS. RXBYTE (46_framecodec.md R250 to R252): what each branch leaves, the cause of a drop as one number, and a
frame that is judged by it. -/

open Sys2Proof Sys2Proof.Certificates

namespace Sys2Proof.Machine

/-! ### One byte received -/

/-- RXBUF and the receive registers once a start byte has begun a frame (R250). -/
def State.frameStarted (s : State) : State :=
  (s.writeByte .rxbuf 0 0xFF#8).setFc { s.fc with rxn := 1#9, rxsync := true }

section Receive

variable {a : Byte} {s : State}

theorem exec_rxbyte_discard (hsync : s.fc.rxsync = false) (ha : a ≠ 0xFF#8) :
    exec (.rxbyte a) s = .next (okAfter s 0) := by
  change execRxbyte a s = _
  rw [execRxbyte, if_pos hsync, if_neg ha]
  rfl

theorem exec_rxbyte_start (hsync : s.fc.rxsync = false) :
    exec (.rxbyte 0xFF#8) s = .next (okAfter s.frameStarted 0) := by
  change execRxbyte 0xFF#8 s = _
  rw [execRxbyte, if_pos hsync, if_pos rfl]
  rfl

theorem exec_rxbyte_overflow (hsync : s.fc.rxsync = true) (hfull : s.fc.rxn.toNat = 258) :
    exec (.rxbyte a) s =
      .next (errAfter { s with fc := { s.fc with rxsync := false, rxn := 0#9, frCause := 7#3 } } 4) := by
  change execRxbyte a s = _
  rw [execRxbyte, if_neg (by simp [hsync]), if_pos (BitVec.eq_of_toNat_eq hfull)]
  exact congrArg _ (State.takeError_eq_errAfter _ .framingError)

variable (hsync : s.fc.rxsync = true) (hroom : s.fc.rxn.toNat < 258)
include hsync hroom

theorem exec_rxbyte_room : exec (.rxbyte a) s = (s.collect a).complete := by
  have hn : s.fc.rxn ≠ 258#9 := fun h => by rw [h] at hroom; exact absurd hroom (by decide)
  change execRxbyte a s = _
  rw [execRxbyte, if_neg (by simp [hsync]), if_neg hn]

theorem exec_rxbyte_collect (ha : a ≠ 0x00#8) : exec (.rxbyte a) s = .next (okAfter (s.collected a) 0) := by
  rw [exec_rxbyte_room hsync hroom, State.collect_eq, if_pos ha]
  rfl

/-- A zero byte ends the frame, with the reply of its verdict (R250). -/
theorem exec_rxbyte_drop {cause : Nat} (hverdict : (s.collected 0x00#8).verdict = .drop cause) :
    exec (.rxbyte 0x00#8) s = .next ((s.collected 0x00#8).dropFrame cause).settle := by
  rw [exec_rxbyte_room hsync hroom, State.collect_eq, if_neg (not_not.2 rfl), hverdict]
  rfl

theorem exec_rxbyte_deliver {payload : List Byte} (hverdict : (s.collected 0x00#8).verdict = .deliver payload) :
    exec (.rxbyte 0x00#8) s = .next ((s.collected 0x00#8).deliver payload).settle := by
  rw [exec_rxbyte_room hsync hroom, State.collect_eq, if_neg (not_not.2 rfl), hverdict]
  rfl

end Receive

/-! ### The bytes collected -/

section Collected

variable {s : State} (a : Byte)

theorem State.readByte_collected (sp : Space) (k : Nat) :
    (s.collected a).readByte sp k = if sp = .rxbuf ∧ k = s.fc.rxn.toNat then a else s.readByte sp k := by
  rw [State.collected, State.readByte_setFc, State.readByte_writeByte]

theorem State.collected_sameBytesBut : SameBytesBut .rxbuf (fun key => key = s.fc.rxn.toNat) s (s.collected a) := by
  intro sp key h
  rw [State.readByte_collected, if_neg h]

theorem State.collected_rxn (hroom : s.fc.rxn.toNat < 258) : (s.collected a).fc.rxn.toNat = s.fc.rxn.toNat + 1 := by
  change (s.fc.rxn + 1#9).toNat = _
  rw [BitVec.toNat_add]
  exact Nat.mod_eq_of_lt (by rw [BitVec.toNat_ofNat]; omega)

theorem State.bytesOf_collected :
    bytesOf (s.collected a) .rxbuf (s.fc.rxn.toNat + 1) = bytesOf s .rxbuf s.fc.rxn.toNat ++ [a] := by
  rw [bytesOf, List.range_succ, List.map_append, bytesOf]
  refine congrArg₂ _ (List.map_congr_left fun i hi => ?_) ?_
  · have hlt := List.mem_range.1 hi
    rw [State.readByte_collected, if_neg (by omega)]
  · rw [List.map_singleton, State.readByte_collected, if_pos ⟨rfl, rfl⟩]

/-- The verdict is on the bytes buffered before and the byte that ends the frame (R251). -/
theorem State.verdict_collected (hroom : s.fc.rxn.toNat < 258) :
    (s.collected a).verdict = checkFrame (bytesOf s .rxbuf s.fc.rxn.toNat ++ [a]) := by
  rw [State.verdict, State.collected_rxn a hroom, ← State.bytesOf_collected]
  simp only [State.readRun, bytesOf, Nat.zero_add]

end Collected

/-! ### The cause of a drop -/

/-- The checks of R251 as the causes of R252, in their order, with 0 for a frame that passes: of a frame of `n` bytes
with the given declared length and decoded content. -/
def frameCause (n declared : Nat) (content : List Byte) : Nat :=
  if n < 3 then 1 else if declared + 3 < n then 2 else if content.length = 0 then 3
  else if content.length < 2 then 4 else if (content.getD 1 0#8).toNat ≠ content.length - 2 then 5
  else if crcBitwise (content.drop 2) ≠ content.getD 0 0#8 then 6 else 0

theorem frameCause_le (n declared : Nat) (content : List Byte) : frameCause n declared content ≤ 6 := by
  unfold frameCause
  split_ifs <;> decide

/-- The verdict that a cause stands for. -/
def FrameVerdict.ofCause (cause : Nat) (content : List Byte) : FrameVerdict :=
  if cause = 0 then .deliver (content.drop 2) else .drop cause

/-- The checks on the content decide the cause of a frame that is long enough and whose declared length is. -/
theorem checkContent_eq_ofCause {n declared : Nat} (hn : ¬ n < 3) (hdeclared : ¬ declared + 3 < n) (content : List Byte) :
    checkContent content = .ofCause (frameCause n declared content) content := by
  rw [frameCause, if_neg hn, if_neg hdeclared]
  rcases checkContent_cases content with ⟨rfl, hc⟩ | ⟨hlen, hc⟩ |
      ⟨crc, len, payload, rfl, ⟨hlen, hc⟩ | ⟨hlen, hcrc, hc⟩ | ⟨hlen, hcrc, hc⟩⟩ <;> rw [hc]
  · rfl
  · rw [hlen]; rfl
  · simp [FrameVerdict.ofCause, hlen]
  · rw [crc8_eq_crcBitwise] at hcrc
    simp [FrameVerdict.ofCause, hlen, hcrc]
  · rw [crc8_eq_crcBitwise] at hcrc
    simp [FrameVerdict.ofCause, hlen, hcrc]

/-- `CheckFrame()` gives the verdict of the cause; a frame too short has no declared length (R251). -/
theorem checkFrame_eq_ofCause {buf content : List Byte} {declared : Nat}
    (hdeclared : 3 ≤ buf.length → declared = (buf.getD 1 0#8).toNat)
    (hcontent : content = cobsDecode ((buf.drop 2).take (buf.length - 3))) :
    checkFrame buf = .ofCause (frameCause buf.length declared content) content := by
  rcases checkFrame_cases buf with ⟨hshort, hc⟩ | ⟨hlong, hbelow, hc⟩ | ⟨hlong, hdecl, hc⟩ <;> rw [hc]
  · rw [frameCause, if_pos hshort]; rfl
  · rw [frameCause, if_neg (by omega), if_pos (by rwa [hdeclared hlong])]; rfl
  · rw [← hcontent]
    exact checkContent_eq_ofCause (by omega) (by rw [hdeclared hlong]; omega) content

/-- The part of a frame that COBS codes: all but its first two bytes and its last (R240). -/
theorem codedPart_eq (s : State) (sp : Space) (m : Nat) (b : Byte) :
    ((bytesOf s sp m ++ [b]).drop 2).take (m + 1 - 3) = (List.range (m + 1 - 3)).map fun i => s.readByte sp (2 + i) := by
  refine List.ext_getElem (by simp; omega) fun i hi hi' => ?_
  rw [List.length_map, List.length_range] at hi'
  rw [List.getElem_take, List.getElem_drop, List.getElem_append_left (by rw [bytesOf_length]; omega), bytesOf_getElem,
    List.getElem_map, List.getElem_range]

/-! ### A frame judged -/

theorem State.collected_verdict_eq_ofCause {s : State} {n declared : Nat} {content : List Byte}
    (hroom : s.fc.rxn.toNat < 258) (hn : n = s.fc.rxn.toNat + 1)
    (hdeclared : 3 ≤ n → declared = (s.readByte .rxbuf 1).toNat)
    (hcontent : content = cobsDecode ((List.range (n - 3)).map fun i => s.readByte .rxbuf (2 + i))) (b : Byte) :
    (s.collected b).verdict = .ofCause (frameCause n declared content) content := by
  have hlen : (bytesOf s .rxbuf s.fc.rxn.toNat ++ [b]).length = n := by
    rw [List.length_append, bytesOf_length, hn, List.length_singleton]
  rw [State.verdict_collected b hroom, ← hlen]
  refine checkFrame_eq_ofCause (fun hlong => ?declared) ?content
  case declared =>
    rw [hlen] at hlong
    rw [hdeclared hlong, List.getD_append _ _ _ _ (by rw [bytesOf_length]; omega),
      List.getD_eq_getElem _ _ (by rw [bytesOf_length]; omega), bytesOf_getElem]
  case content => rw [hlen, hcontent, hn, codedPart_eq]

/-- The payload delivered, byte by byte, and every other byte as the collection left it (R251). -/
theorem State.readByte_deliver (s : State) (payload : List Byte) (sp : Space) (k : Nat) :
    (s.deliver payload).settle.readByte sp k =
      if sp = .rxpay ∧ k < payload.length then payload.getD k 0#8 else s.readByte sp k := by
  rw [State.deliver_settle, State.readByte_answer, State.readByte_setFc, State.readByte_writeRun]
  simp

theorem State.bytesOf_deliver (s : State) (payload : List Byte) :
    bytesOf (s.deliver payload).settle .rxpay payload.length = payload :=
  bytesOf_eq_of_getD fun i hi => by rw [State.readByte_deliver, if_pos ⟨rfl, hi⟩]

section Judged

variable (s : State) (b : Byte)

theorem State.collected_deliver_answer (payload : List Byte) :
    ((s.collected b).deliver payload).settle.response = some (okWord 1) ∧
      ((s.collected b).deliver payload).settle.errlog = s.errlog := by
  rw [State.deliver_settle]
  exact ⟨rfl, by simp [State.writeRun, State.collected, State.writeByte]⟩

theorem State.collected_deliver_fc (payload : List Byte) :
    ((s.collected b).deliver payload).settle.fc =
      { s.fc with
        rxsync := false, rxn := 0#9, rxpayn := BitVec.ofNat 8 payload.length, frCause := 0#3 } := by
  rw [State.deliver_settle, State.answer_fc, State.setFc_fc]
  rfl

theorem State.collected_drop_sameUnits (cause : Nat) :
    SameUnits { s with fc := ((s.collected b).dropFrame cause).settle.fc } ((s.collected b).dropFrame cause).settle := by
  constructor <;> simp [State.dropFrame_settle, State.collected, State.writeByte]

theorem State.collected_deliver_sameUnits (payload : List Byte) :
    SameUnits { s with fc := ((s.collected b).deliver payload).settle.fc } ((s.collected b).deliver payload).settle := by
  constructor <;> simp [State.deliver_settle, State.writeRun, State.collected, State.writeByte]

end Judged

/-- Settles O55: the branches of RXBYTE, and for a zero byte the verdict of the frame's cause. -/
theorem rxbyteReassemblesFrames : Obligations.RxbyteReassemblesFrames := by
  refine ⟨fun a s => ⟨hasWord_row_fields (.rxbyte a), exec_rxbyte_discard, fun hsync => ?started,
    fun hsync hroom ha => ?collected, exec_rxbyte_overflow⟩, ?judged⟩
  case started =>
    obtain ⟨hstored, hothers⟩ := s.writeByte_stores .rxbuf 0 0xFF#8 0
    exact ⟨_, exec_rxbyte_start hsync, rfl, rfl, hstored, ⟨rfl, rfl, rfl, rfl, rfl, rfl, rfl, rfl, rfl⟩, hothers⟩
  case collected =>
    obtain ⟨hstored, hothers⟩ := s.writeByte_stores .rxbuf s.fc.rxn.toNat a 0
    exact ⟨_, exec_rxbyte_collect hsync hroom ha, rfl, rfl, hstored,
      ⟨rfl, rfl, rfl, rfl, rfl, rfl, rfl, rfl, rfl⟩, hothers⟩
  case judged =>
    intro s n content _ hsync hroom hn hcontent declared cause
    have hverdict : (s.collected 0x00#8).verdict = .ofCause cause content :=
      State.collected_verdict_eq_ofCause hroom hn (fun hlong => if_neg (by omega)) hcontent _
    have hcause : cause ≤ 6 := frameCause_le n declared content
    clear_value cause
    by_cases h0 : cause = 0
    · have hlen : (content.drop 2).length = content.length - 2 := List.length_drop
      have hpayload : content.length - 2 < 256 := by
        have hdecoded := cobsDecode_length ((List.range (n - 3)).map fun i => s.readByte .rxbuf (2 + i))
        rw [← hcontent, List.length_map, List.length_range] at hdecoded
        omega
      rw [h0, FrameVerdict.ofCause, if_pos rfl] at hverdict
      obtain ⟨hresponse, herrlog⟩ := s.collected_deliver_answer 0x00#8 (content.drop 2)
      refine ⟨_, exec_rxbyte_deliver hsync hroom hverdict, s.collected_deliver_sameUnits .., ?_⟩
      rw [s.collected_deliver_fc]
      refine ⟨h0.symm, rfl, rfl, rfl, fun h => absurd h0 h, fun _ => ⟨hresponse, herrlog, ?_, ?_, ?_⟩⟩
      · rw [← hlen]
        exact Nat.mod_eq_of_lt (hlen.trans_lt hpayload)
      · rw [← hlen]
        exact State.bytesOf_deliver _ _
      · intro sp key hbuf hpay
        rw [State.readByte_deliver, hlen, if_neg hpay, s.collected_sameBytesBut 0x00#8 sp key hbuf]
    · rw [FrameVerdict.ofCause, if_neg h0] at hverdict
      refine ⟨_, exec_rxbyte_drop hsync hroom hverdict, s.collected_drop_sameUnits .., ?_,
        rfl, rfl, rfl, fun _ => ⟨rfl, rfl, rfl, s.collected_sameBytesBut 0x00#8⟩, fun h => absurd h h0⟩
      exact Nat.mod_eq_of_lt (by omega)

end Sys2Proof.Machine
end

section
/-! PROOFS. A built frame is delivered (46_framecodec.md R253): the reassembler collects the frame's bytes up to its one
zero, and the checks then find the content that FRBUILD has coded. -/

open Sys2Proof Sys2Proof.Certificates

namespace Sys2Proof.Machine

/-! ### The checks on a built frame -/

/-- The content of a built frame passes its checks (R251). -/
theorem checkContent_frameContent {p : List Byte} (hp : p.length ≤ 252) :
    checkContent (frameContent p) = .deliver p := by
  have hlen : (BitVec.ofNat 8 p.length).toNat = p.length := Nat.mod_eq_of_lt (by omega)
  rw [frameContent, checkContent, hlen, if_neg (not_not.2 rfl), crc8_eq_crcBitwise, if_neg (not_not.2 rfl)]

/-- A built frame passes the checks, and COBS gives its content back (R251, R253). -/
theorem checkFrame_wireFrame {p : List Byte} (hp : p.length ≤ 252) : checkFrame (wireFrame p) = .deliver p := by
  have hlen := wireFrame_length hp
  have hcoded : (cobsEncode (frameContent p)).length = p.length + 3 := cobsEncode_length (frameContent_length_le hp)
  have hdeclared : ((wireFrame p).getD 1 0#8).toNat = p.length + 3 := by
    rw [wireFrame_eq]
    exact Nat.mod_eq_of_lt (by omega)
  have hpart : ((wireFrame p).drop 2).take ((wireFrame p).length - 3) = cobsEncode (frameContent p) := by
    rw [hlen, wireFrame_eq]
    exact List.take_left' hcoded
  rw [checkFrame, hdeclared, hpart, if_neg (by omega), if_neg (by omega),
    cobsDecode_cobsEncode (frameContent_length_le hp), checkContent_frameContent hp]

/-! ### Bytes fed one after another -/

theorem fed_cons (s : State) (b : Byte) (bs : List Byte) : fed s (b :: bs) = fed (after (.rxbyte b) s) bs := rfl

theorem fed_concat (s : State) (bs : List Byte) (b : Byte) : fed s (bs ++ [b]) = after (.rxbyte b) (fed s bs) :=
  List.foldl_concat ..

/-- The unit has buffered the bytes `buf` of a frame and answered 0 to the last of them (R250). -/
structure State.Collecting (s : State) (buf : List Byte) : Prop where
  sync : s.fc.rxsync = true
  count : s.fc.rxn.toNat = buf.length
  bytes : bytesOf s .rxbuf buf.length = buf
  answered : s.response = some (okWord 0)

section Collecting

variable {s : State} {buf : List Byte}

/-- A start byte begins a frame (R250). -/
theorem collecting_of_start (hsync : s.fc.rxsync = false) : (after (.rxbyte 0xFF#8) s).Collecting [0xFF#8] := by
  rw [after_eq_of_exec (exec_rxbyte_start hsync)]
  refine ⟨rfl, rfl, ?_, rfl⟩
  exact congrArg (· :: []) (s.writeByte_stores .rxbuf 0 0xFF#8 0).1

/-- A byte that is not zero joins the frame, where there is room (R250). -/
theorem State.Collecting.push (h : s.Collecting buf) (hroom : buf.length < 258) {b : Byte} (hb : b ≠ 0x00#8) :
    (after (.rxbyte b) s).Collecting (buf ++ [b]) := by
  obtain ⟨hsync, hcount, hbytes, -⟩ := h
  rw [← hcount] at hroom hbytes
  rw [after_eq_of_exec (exec_rxbyte_collect hsync hroom hb)]
  have hlen : (buf ++ [b]).length = s.fc.rxn.toNat + 1 := by rw [List.length_append, hcount, List.length_singleton]
  refine ⟨hsync, (State.collected_rxn b hroom).trans hlen.symm, ?_, rfl⟩
  rw [hlen]
  exact (State.bytesOf_collected b).trans (congrArg (· ++ [b]) hbytes)

theorem State.Collecting.fed {bs : List Byte} (h : s.Collecting buf) (hroom : buf.length + bs.length ≤ 258)
    (hfree : 0x00#8 ∉ bs) : (fed s bs).Collecting (buf ++ bs) := by
  induction bs generalizing s buf with
  | nil => rwa [List.append_nil]
  | cons b bs ih =>
    rw [List.length_cons] at hroom
    obtain ⟨hb, hbs⟩ := List.ne_and_not_mem_of_not_mem_cons hfree
    rw [fed_cons, List.append_cons]
    exact ih (h.push (by omega) hb.symm) (by rw [List.length_append, List.length_singleton]; omega) hbs

/-- A start byte and bytes that are not zero are collected (R250). -/
theorem collecting_of_fed {bs : List Byte} (hsync : s.fc.rxsync = false) (hroom : bs.length ≤ 257)
    (hfree : 0x00#8 ∉ bs) : (fed s (0xFF#8 :: bs)).Collecting (0xFF#8 :: bs) :=
  (collecting_of_start hsync).fed (by simp; omega) hfree

/-- The zero that ends a frame delivers the payload that the checks find in it (R250, R251). -/
theorem State.Collecting.deliver (h : s.Collecting buf) (hroom : buf.length < 258) {payload : List Byte}
    (hcheck : checkFrame (buf ++ [0x00#8]) = .deliver payload) :
    after (.rxbyte 0x00#8) s = ((s.collected 0x00#8).deliver payload).settle := by
  obtain ⟨hsync, hcount, hbytes, -⟩ := h
  rw [← hcount] at hroom hbytes
  refine after_eq_of_exec (exec_rxbyte_deliver hsync hroom ?_)
  rw [State.verdict_collected _ hroom, hbytes, hcheck]

end Collecting

/-- Settles O56: the frame is a start byte, bytes that are not zero and a zero; the first are collected, and the zero ends
a frame that the checks accept. -/
theorem frameRoundTrip : Obligations.FrameRoundTrip := by
  intro a s u v ha hu hsync
  have hpn : (bytesOf s .fin a.toNat).length = a.toNat := bytesOf_length ..
  obtain rfl := Host.Outcome.next.inj ((exec_frbuild_of_le ha s).symm.trans hu)
  generalize bytesOf s .fin a.toNat = p at hpn ⊢
  have hp : p.length ≤ 252 := hpn.trans_le ha
  have hbody : (frameBody p).length = a.toNat + 4 := by rw [frameBody_length hp, hpn]
  have hfree := zero_notMem_frameBody hp
  have hframe := (s.putFout_answer_fills (wireFrame p) (a.toNat + 6) (by rw [wireFrame_length hp, hpn])).1
  have hlast : fed v (0xFF#8 :: frameBody p ++ [0x00#8]) =
      (((fed v (0xFF#8 :: frameBody p)).collected 0x00#8).deliver p).settle := by
    rw [fed_concat]
    exact (collecting_of_fed hsync (by omega) hfree).deliver (by rw [List.length_cons]; omega)
      (wireFrame_eq p ▸ checkFrame_wireFrame hp)
  rw [hframe, wireFrame_eq, hlast]
  refine ⟨fun j hj => ?_, rfl, ?_, rfl, hpn ▸ State.bytesOf_deliver ..⟩
  · rw [List.take_append_of_le_length (by rw [List.length_cons]; omega), List.take_succ_cons]
    exact (collecting_of_fed hsync (by rw [List.length_take]; omega) fun h => hfree (List.mem_of_mem_take h)).answered
  · change BitVec.ofNat 8 p.length = a
    rw [hpn, BitVec.ofNat_toNat, BitVec.setWidth_eq]

end Sys2Proof.Machine
end

section
/-! PROOFS. What an error leaves behind (60_exceptions.md R270, R272, R284) and what reset gives (70_reset_and_hazards.md
R290, R291): a failing command raises on the state it was given, but for COBSDEC and RXBYTE. -/

open Sys2Proof Sys2Proof.Certificates

namespace Sys2Proof.Machine

/-! ### Idle and reset -/

/-- Settles O7: an idle step keeps the state, and a reset step builds the reset state behind the event it has taken. -/
theorem idleAndResetSteps : Obligations.IdleAndResetSteps := by
  refine fun s rest => ⟨step_of_idle, fun hin => ?_⟩
  calc step s = .next (s.setInbox rest).applyReset := step_of_reset hin
    _ = _ := rfl

/-- The reset value of a numbered register (R291). -/
def resetValue (a : Byte) : Nat :=
  if a = 0x00#8 then 0x11D else if a = 0x01#8 then 8 else if a = 0x02#8 then 2 else 0

/-- The register map right after reset is the same whatever the capacities (R291). -/
theorem registerMap_resetOf (p : Params) (epoch : Nat) :
    registerMap (State.resetOf p epoch) = registerMap State.reset := rfl

theorem resetValue_of_mem_registerMap {p : Params} {epoch : Nat} {a : Byte} {v : Nat}
    (h : (a, v) ∈ registerMap (State.resetOf p epoch)) : v = resetValue a := by
  have hvalues : ∀ x ∈ registerMap State.reset, x.2 = resetValue x.1 := by decide +kernel
  exact hvalues (a, v) (registerMap_resetOf p epoch ▸ h)

theorem srclen_resetOf {p : Params} {f : Nat} (hf : f < p.fMax) (epoch : Nat) :
    (State.resetOf p epoch).enc.srclen[f]? = some 0#8 :=
  List.getElem?_replicate_of_lt hf

/-- Settles O14: RDREG answers what the map lists, and after reset the map lists the reset values. -/
theorem resetRegisterValues : Obligations.ResetRegisterValues := by
  refine fun p epoch a v => ⟨fun hv => ⟨resetValue_of_mem_registerMap hv, ?_⟩, rfl, fun f hf => srclen_resetOf hf epoch⟩
  obtain ⟨-, -, -, -, hassigned, -⟩ := nopAndRdregCommands a (State.resetOf p epoch)
  exact hassigned v hv

/-! ### The status of a reply -/

theorem responseStatus_error (e : ErrorKind) : responseStatus (responseWord e.code 0) = e.code := by
  cases e <;> decide +kernel

theorem State.answer_not_failed {u : State} {v : Nat} {rw : ResponseWord} (hrw : (u.answer v).response = some rw) :
    responseStatus rw = 0 := by
  obtain rfl := Option.some.inj ((u.answer_response v).symm.trans hrw)
  exact responseStatus_okWord v

/-- The reply is a value, or it is raised on the state `s`. -/
inductive Reply.RaisesOn (s : State) : Reply → Prop where
  | value (u : State) (v : Nat) : RaisesOn s (.value u v)
  | raise (e : ErrorKind) : RaisesOn s (.raise s e)

/-- A reply with a status other than OK is an error, and leaves the state that it is raised on with that error (R272). -/
theorem Reply.RaisesOn.settle_of_failed {r : Reply} {s : State} {rw : ResponseWord} (h : r.RaisesOn s)
    (hrw : r.settle.response = some rw) (hfailed : responseStatus rw ≠ 0) : r.settle = errAfter s (responseStatus rw) := by
  cases h with
  | value u v => exact absurd (State.answer_not_failed hrw) hfailed
  | raise e =>
    obtain rfl := Option.some.inj ((s.takeError_response e).symm.trans hrw)
    rw [responseStatus_error]
    exact s.takeError_eq_errAfter e

/-! ### All commands but two -/

theorem State.askSession_raisesOn (s : State) (p : SessRegs → Bool) : (s.askSession p).RaisesOn s := by
  unfold State.askSession
  split
  · exact .raise _
  · exact .value ..

/-- Every test of a command stands before its writes, so an error is raised on the old state (R272). -/
theorem exec_raisesOn {i : Instr} (hcobsdec : ∀ a, i ≠ .cobsdec a) (hrxbyte : ∀ a, i ≠ .rxbyte a) (s : State) :
    ∃ r : Reply, exec i s = r.complete ∧ r.RaisesOn s := by
  cases i
  -- no test
  case nop | gfadd | gfsub | gfmul | gfpow | lfseed | lfreset | cfgload | sstop | crc8 => exact ⟨_, rfl, .value ..⟩
  -- one test, or one partial function
  case frcnt | frlen | frwr | frrd | cprd | dpcnt | dpwr | dprd | drrd | drfl | dsrd | fiwr | fird | ford | rprd |
      deccfg | decrun | decgen | sadv | cobsenc | frbuild | rdreg | gfdiv | lfgen | encprep | cfgset =>
    refine ⟨_, rfl, ?_⟩
    split <;> constructor
  -- the session's predicates
  case sgenc | slast | sdone => exact ⟨_, rfl, s.askSession_raisesOn _⟩
  -- two tests in a row
  case cpmd | encpre | sstart | sfetch =>
    refine ⟨_, rfl, ?_⟩
    split
    · constructor
    · split <;> constructor
  case cobsdec a => exact absurd rfl (hcobsdec a)
  case rxbyte a => exact absurd rfl (hrxbyte a)

/-! ### COBSDEC and RXBYTE -/

theorem cobsdec_failed {a : Byte} {s t : State} {rw : ResponseWord} (ht : exec (.cobsdec a) s = .next t)
    (hrw : t.response = some rw) (hfailed : responseStatus rw ≠ 0) :
    t = errAfter { s with fc := { s.fc with foutn := 0#9 } } 4 := by
  by_cases hout : cobsDecode (bytesOf s .fin a.toNat) = []
  · exact Host.Outcome.next.inj (ht.symm.trans (exec_cobsdec_of_nil hout))
  · obtain rfl := Host.Outcome.next.inj ((exec_cobsdec_of_ne_nil hout).symm.trans ht)
    exact absurd (State.answer_not_failed hrw) hfailed

/-- The checks drop a frame with a cause from 1 to 6 (R251, R252). -/
theorem checkFrame_drop_bounds {buf : List Byte} {cause : Nat} (h : checkFrame buf = .drop cause) :
    1 ≤ cause ∧ cause ≤ 6 := by
  rw [checkFrame_eq_ofCause (fun _ => rfl) rfl, FrameVerdict.ofCause] at h
  split at h
  · exact absurd h nofun
  · next hne =>
    obtain rfl := FrameVerdict.drop.inj h
    exact ⟨Nat.one_le_iff_ne_zero.2 hne, frameCause_le ..⟩

/-- RXBYTE answers a value or drops the frame, with RXBUF as it was but for the byte at RXN, where R250 stores the byte
that ends the frame before it judges it (log 19). -/
theorem exec_rxbyte_answer_or_drop (a : Byte) (s : State) :
    (∃ u v, exec (.rxbyte a) s = .next (State.answer u v)) ∨
      ∃ m cause, 1 ≤ cause ∧ cause ≤ 7 ∧ SameBytesBut .rxbuf (fun key => key = s.fc.rxn.toNat) s (s.setMem m) ∧
        exec (.rxbyte a) s = .next ((s.setMem m).dropFrame cause).settle := by
  have harm : exec (.rxbyte a) s = execRxbyte a s := rfl
  rw [harm, execRxbyte, Reply.complete_eq]
  split
  case isTrue => split <;> exact .inl ⟨_, _, rfl⟩
  case isFalse =>
    split
    case isTrue => exact .inr ⟨s.mem, 7, by decide, by decide, fun _ _ _ => rfl, rfl⟩
    case isFalse =>
      rw [State.collect_eq]
      split
      · exact .inl ⟨_, _, rfl⟩
      · split
        · next cause hdrop =>
          obtain ⟨hlo, hhi⟩ := checkFrame_drop_bounds hdrop
          exact .inr ⟨(s.collected a).mem, cause, hlo, by omega, s.collected_sameBytesBut a, rfl⟩
        · exact .inl ⟨_, _, rfl⟩

/-- FR_CAUSE holds every cause, so none of them reads as the 0 of a delivery (R251, R252). -/
theorem ofNat_cause_ne_zero {cause : Nat} (hlo : 1 ≤ cause) (hhi : cause ≤ 7) : BitVec.ofNat 3 cause ≠ 0#3 := by
  interval_cases cause <;> decide

/-- Settles O10: a command raises on its old state; COBSDEC has cleared FOUTN, and RXBYTE drops the frame, each only with
FramingError. -/
theorem failingCommandsChangeOnlyErrlog : Obligations.FailingCommandsChangeOnlyErrlog := by
  intro i s t rw ht hrw hfailed
  refine ⟨fun hcobsdec hrxbyte => ?unchanged, ?cobsdec, ?rxbyte⟩
  case unchanged =>
    obtain ⟨r, hr, hraises⟩ := exec_raisesOn hcobsdec hrxbyte s
    obtain rfl : r.settle = t := Host.Outcome.next.inj (hr.symm.trans ht)
    exact hraises.settle_of_failed hrw hfailed
  case cobsdec =>
    rintro ⟨a, rfl⟩
    exact cobsdec_failed ht hrw hfailed
  case rxbyte =>
    rintro ⟨a, rfl⟩
    obtain ⟨u, v, hanswer⟩ | ⟨m, cause, hlo, hhi, hbytes, hdrop⟩ := exec_rxbyte_answer_or_drop a s
    · obtain rfl := Host.Outcome.next.inj (hanswer.symm.trans ht)
      exact absurd (State.answer_not_failed hrw) hfailed
    · obtain rfl := Host.Outcome.next.inj (hdrop.symm.trans ht)
      exact ⟨⟨rfl, rfl, rfl, rfl, rfl, rfl, rfl, rfl, rfl⟩, ofNat_cause_ne_zero hlo hhi, rfl,
        (Option.some.inj hrw).symm, hbytes⟩

end Sys2Proof.Machine
end
